-- ==== Sys2Proof/Word.lean ====
section
/-! DEFINITION. The words of the block: the widths of `00_scope.md` R7 and the data encodings of
`30_encoding.md` R59 to R61. -/

namespace Sys2Proof

/-- A command word `CMD[63:0]` (R51). -/
abbrev CommandWord := BitVec 64

/-- A segment pattern: bit 0 the decimal point, bits 1 to 7 the segments a to g (R59). -/
abbrev Pattern := BitVec 8

/-- A character code, unsigned (R53, R71). -/
abbrev CharCode := BitVec 8

/-- A Color of `width` bits, the parameter "Color width" of R5 (D6); zero is "off" (R60). -/
abbrev Color (width : Nat) := BitVec width

/-- An occupancy count, two's complement (R10). -/
abbrev Count := BitVec 16

/-- A geometry entry: a pixel offset 0 to 14, or the sentinel 0xFFFF (R61). -/
abbrev GeomEntry := BitVec 16

/-- A luminance level, 0 to 255 (R18). -/
abbrev Level := BitVec 8

/-- A digit position: 0 the most significant (leftmost), 3 the least (R35, R53). -/
abbrev Position := Fin 4

/-- The 60 pixels of the strip (R4, R16). -/
abbrev PixelBuffer (width : Nat) := Vector (Color width) 60

/-- The zero color (R60). -/
abbrev off {width : Nat} : Color width := 0

/-- The zero pattern (R90, R96). -/
abbrev blank : Pattern := 0

/-- The geometry sentinel `NONE`, "no second pixel" (R13, R61). -/
abbrev noPixel : GeomEntry := 0xFFFF

/-- One display cell: a pattern and the colour it is drawn in (R12). -/
structure Cell (width : Nat) where
  pat : Pattern
  col : Color width
  deriving DecidableEq, Repr

/-- The display frame: one cell for each digit position (R12). -/
abbrev Cells (width : Nat) := Vector (Cell width) 4

/-- The strokes a pattern selects, in the spec's letter order (R59). -/
inductive Segment where
  | dp | a | b | c | d | e | f | g
  deriving DecidableEq, Repr

/-- The pattern bit of a segment (R59). -/
def Segment.bit : Segment → Fin 8
  | .dp => 0 | .a => 1 | .b => 2 | .c => 3 | .d => 4 | .e => 5 | .f => 6 | .g => 7

/-- The pattern that lights exactly the listed segments (R59, row "mask"). -/
def patternOf (segments : List Segment) : Pattern :=
  segments.foldl (fun pat x => pat ||| (1 <<< x.bit.val)) 0

/-- The red field of a Color of the reference width (R60). -/
def Color.red (c : Color 24) : BitVec 8 := c.extractLsb' 16 8

/-- The green field of a Color of the reference width (R60). -/
def Color.green (c : Color 24) : BitVec 8 := c.extractLsb' 8 8

/-- The blue field of a Color of the reference width (R60). -/
def Color.blue (c : Color 24) : BitVec 8 := c.extractLsb' 0 8

end Sys2Proof
end

