-- ==== Sys2Proof/Syntax.lean ====
section
/-! DEFINITION. The seven commands of `30_encoding.md` R52 and their mnemonics. A colour operand has the
reference width 24, which the layout of R51 assumes. -/

namespace Sys2Proof

/-- A command with its operands read out of the word (R52, R53). -/
inductive Instr where
  /-- `LOOKUP c` (R74). -/
  | lookup (c : CharCode)
  /-- `RENDER pos, pat, col` (R83). -/
  | render (pos : Position) (pat : Pattern) (col : Color 24)
  /-- `COMMIT` (R84). -/
  | commit
  /-- `FMTNUM count, open` (R94); `open` = true means open. -/
  | fmtnum (count : Count) (isOpen : Bool)
  /-- `FMTTEXT len, c0, c1, c2, c3, col` (R95). -/
  | fmttext (len : BitVec 3) (c0 c1 c2 c3 : CharCode) (col : Color 24)
  /-- `SETCOUNT count` (R100). -/
  | setcount (count : Count)
  /-- `SETSTATE open` (R101). -/
  | setstate (isOpen : Bool)
  deriving DecidableEq, Repr

/-- The mnemonic of a command (R52). -/
def Instr.mnemonic : Instr → String
  | .lookup _ => "LOOKUP"
  | .render _ _ _ => "RENDER"
  | .commit => "COMMIT"
  | .fmtnum _ _ => "FMTNUM"
  | .fmttext _ _ _ _ _ _ => "FMTTEXT"
  | .setcount _ => "SETCOUNT"
  | .setstate _ => "SETSTATE"

end Sys2Proof
end

