-- ==== Sys2Proof/WellFormed.lean ====
section
/-! DEFINITION. Which commands are legal: `30_encoding.md` R53, R54. -/

namespace Sys2Proof

/-- Every operand value is legal but a text length above 4 (R53, R54). -/
def Instr.wellFormed : Instr → Bool
  | .lookup _ => true
  | .render _ _ _ => true
  | .commit => true
  | .fmtnum _ _ => true
  | .fmttext len _ _ _ _ _ => decide (len.toNat ≤ 4)
  | .setcount _ => true
  | .setstate _ => true

end Sys2Proof
end

