-- ==== Sys2Proof/Decode.lean ====
section
/-! DEFINITION. The command word: `30_encoding.md` R51 to R56. The decoder is total, reads every field
once and refuses reserved encodings by name; the encoder writes the formats of R51 with reserved bits
zero (R55: "A host should write zeros"). -/

namespace Sys2Proof

/-- Why a word is a reserved encoding (R54). -/
inductive Reserved where
  /-- Opcode 0x0 or 0x8 to 0xF. -/
  | opcode (op : BitVec 4)
  /-- FMTTEXT with `len` 5, 6 or 7. -/
  | textLength (len : BitVec 3)
  deriving DecidableEq, Repr

/-- `CMD[63:60]` (R51). -/
def opcodeField (w : CommandWord) : BitVec 4 := w.extractLsb' 60 4

/-- The opcode of a command (R52). -/
def Instr.opcode : Instr → BitVec 4
  | .lookup _ => 0x1
  | .render _ _ _ => 0x2
  | .commit => 0x3
  | .fmtnum _ _ => 0x4
  | .fmttext _ _ _ _ _ _ => 0x5
  | .setcount _ => 0x6
  | .setstate _ => 0x7

/-- Format C (R51). -/
def decodeLookup (w : CommandWord) : Instr := .lookup (w.extractLsb' 0 8)

/-- Format R (R51). -/
def decodeRender (w : CommandWord) : Instr :=
  .render (w.extractLsb' 32 2).toFin (w.extractLsb' 24 8) (w.extractLsb' 0 24)

/-- Format I with both fields (R51). -/
def decodeFmtnum (w : CommandWord) : Instr := .fmtnum (w.extractLsb' 0 16) (w.getLsbD 16)

/-- Format T, every slot as it stands in the word (R51). -/
def decodeFmttext (w : CommandWord) : Instr :=
  .fmttext (w.extractLsb' 56 3) (w.extractLsb' 48 8) (w.extractLsb' 40 8) (w.extractLsb' 32 8)
    (w.extractLsb' 24 8) (w.extractLsb' 0 24)

/-- Format I, `open` reserved (R51). -/
def decodeSetcount (w : CommandWord) : Instr := .setcount (w.extractLsb' 0 16)

/-- Format I, `count` reserved (R51). -/
def decodeSetstate (w : CommandWord) : Instr := .setstate (w.getLsbD 16)

/-- The decoder: the opcode map of R52, the reserved encodings of R54. -/
def decode (w : CommandWord) : Except Reserved Instr :=
  match opcodeField w with
  | 0x1#4 => .ok (decodeLookup w)
  | 0x2#4 => .ok (decodeRender w)
  | 0x3#4 => .ok .commit
  | 0x4#4 => .ok (decodeFmtnum w)
  | 0x5#4 =>
    if (w.extractLsb' 56 3).toNat ≤ 4 then .ok (decodeFmttext w)
    else .error (.textLength (w.extractLsb' 56 3))
  | 0x6#4 => .ok (decodeSetcount w)
  | 0x7#4 => .ok (decodeSetstate w)
  | op => .error (.opcode op)

/-- The encoder: each format's fields from the high bits down, reserved bits zero (R51, R55). -/
def encode : Instr → CommandWord
  | .lookup c => 0x1#4 ++ 0#52 ++ c
  | .render pos pat col => 0x2#4 ++ 0#26 ++ BitVec.ofFin (w := 2) pos ++ pat ++ col
  | .commit => 0x3#4 ++ 0#60
  | .fmtnum count isOpen => 0x4#4 ++ 0#43 ++ BitVec.ofBool isOpen ++ count
  | .fmttext len c0 c1 c2 c3 col => 0x5#4 ++ 0#1 ++ len ++ c0 ++ c1 ++ c2 ++ c3 ++ col
  | .setcount count => 0x6#4 ++ 0#44 ++ count
  | .setstate isOpen => 0x7#4 ++ 0#43 ++ BitVec.ofBool isOpen ++ 0#16

/-- `FMTTEXT "text", col` of the assembler notation (R57): `len` is the number of characters, unused
slots are 0x00. No command for more than four characters (R95). -/
def Instr.text (chars : List CharCode) (col : Color 24) : Option Instr :=
  match chars with
  | [] => some (.fmttext 0 0 0 0 0 col)
  | [c0] => some (.fmttext 1 c0 0 0 0 col)
  | [c0, c1] => some (.fmttext 2 c0 c1 0 0 col)
  | [c0, c1, c2] => some (.fmttext 3 c0 c1 c2 0 col)
  | [c0, c1, c2, c3] => some (.fmttext 4 c0 c1 c2 c3 col)
  | _ => none

/-- A Bool operand of the assembler notation: 1 open, 0 closed (R57). -/
def flagText (isOpen : Bool) : String := if isOpen then "1" else "0"

/-- The assembler line of a command, integers in decimal and a character by its code (R57). -/
def Instr.assembly : Instr → String
  | .lookup c => "LOOKUP " ++ toString c.toNat
  | .render pos pat col =>
    "RENDER " ++ toString pos.val ++ ", " ++ toString pat.toNat ++ ", " ++ toString col.toNat
  | .commit => "COMMIT"
  | .fmtnum count isOpen => "FMTNUM " ++ toString count.toInt ++ ", " ++ flagText isOpen
  | .fmttext len c0 c1 c2 c3 col =>
    "FMTTEXT \"" ++
      String.ofList (([c0, c1, c2, c3].take len.toNat).map fun c => Char.ofNat c.toNat) ++
      "\", " ++ toString col.toNat
  | .setcount count => "SETCOUNT " ++ toString count.toInt
  | .setstate isOpen => "SETSTATE " ++ flagText isOpen

/-- The bits of the word a command's format lists (R51): the opcode and the operand fields. -/
def Instr.formatMask : Instr → CommandWord
  | .lookup _ => 0xF0000000000000FF
  | .render _ _ _ => 0xF0000003FFFFFFFF
  | .commit => 0xF000000000000000
  | .fmtnum _ _ => 0xF00000000001FFFF
  | .fmttext _ _ _ _ _ _ => 0xF7FFFFFFFFFFFFFF
  | .setcount _ => 0xF00000000000FFFF
  | .setstate _ => 0xF000000000010000

/-- The host's reading of one row of `spec/opcode_table.json`. The whole command is one 64-bit word
(R51), so there is no later word and no byte order to lay out (R32). -/
def decodeTableWord (nbits w : Nat) : Option Instr :=
  (decode (BitVec.ofNat 64 (w % 2 ^ nbits))).toOption

end Sys2Proof
end

