-- ==== Sys2Proof/Config.lean ====
section
/-! DEFINITION. The parameters of `00_scope.md` R5 with their constraints, and the free values: what the
spec leaves open. The constants are configuration, not state (R13, R20). -/

namespace Sys2Proof

/-- The parameters, before any check (R5, R13); `colorWidth` is the parameter "Color width", which R5
puts no constraint on. -/
structure Params (colorWidth : Nat) where
  /-- `CHARMAP[0..95]` (R70). -/
  charmap : Vector Pattern 96
  /-- `UNDEF_PATTERN` (R72). -/
  undefPattern : Pattern
  /-- `GEOM[0..7][0..1]` (R80). -/
  geom : Vector (Vector GeomEntry 2) 8
  /-- `COLOR_WARN` (R91). -/
  colorWarn : Color colorWidth
  /-- `COLOR_OPEN` (R91). -/
  colorOpen : Color colorWidth
  /-- `COLOR_CLOSED` (R91). -/
  colorClosed : Color colorWidth
  /-- `LUMINANCE` (R18, R131). -/
  luminance : Level
  deriving DecidableEq, Repr

variable {width : Nat}

/-- The fifteen real offsets: the first slot of every bit, the second slot of bits 1 to 7 (R80). -/
def Params.realOffsets (p : Params width) : List GeomEntry :=
  [p.geom[0][0], p.geom[1][0], p.geom[2][0], p.geom[3][0], p.geom[4][0], p.geom[5][0], p.geom[6][0],
   p.geom[7][0], p.geom[1][1], p.geom[2][1], p.geom[3][1], p.geom[4][1], p.geom[5][1], p.geom[6][1],
   p.geom[7][1]]

/-- R5: the undefined glyph is visible. -/
abbrev Params.UndefVisible (p : Params width) : Prop := p.undefPattern ≠ blank

/-- R5, R80 constraints 1 to 4: the decimal point has one pixel, every other slot is a real offset, and
the fifteen real offsets are pairwise distinct. -/
abbrev Params.GeomLegal (p : Params width) : Prop :=
  p.geom[0][1] = noPixel ∧ (p.realOffsets.all fun o => decide (o.toNat < 15)) = true ∧
    p.realOffsets.Nodup

/-- R5, R91: the two state colours differ. -/
abbrev Params.ColorsDiffer (p : Params width) : Prop := p.colorOpen ≠ p.colorClosed

/-- The constraints of R5. -/
abbrev Params.Legal (p : Params width) : Prop := p.UndefVisible ∧ p.GeomLegal ∧ p.ColorsDiffer

/-- A well-formed configuration: parameters that meet the constraints (R5). -/
structure Config (colorWidth : Nat) extends Params colorWidth where
  legal : toParams.Legal
  deriving DecidableEq

/-- Which constraint of R5 an ill-formed configuration breaks. -/
inductive ConfigRefusal where
  /-- `UNDEF_PATTERN` is 0x00. -/
  | undefPatternBlank
  /-- `GEOM` breaks a constraint of R80. -/
  | geomIllegal
  /-- `COLOR_OPEN` equals `COLOR_CLOSED`. -/
  | stateColorsEqual
  deriving DecidableEq, Repr

/-- "a configuration that breaks a constraint is refused by the model" (R5, D25, U11). -/
def Config.ofParams (p : Params width) : Except ConfigRefusal (Config width) :=
  if hu : p.UndefVisible then
    if hg : p.GeomLegal then
      if hc : p.ColorsDiffer then .ok ⟨p, hu, hg, hc⟩ else .error .stateColorsEqual
    else .error .geomIllegal
  else .error .undefPatternBlank

/-- The level of the reference configuration. DESIGN CHOICE (free value): the spec leaves `LUMINANCE`
OPEN (R131, D17), log entry 6. -/
opaque Config.openLuminance : Level

/-- What each pixel buffer entry holds after reset. DESIGN CHOICE (free value): "each entry holds an
arbitrary Color after reset" (R16, D16), log entry 4. -/
opaque Config.pixAtReset : Fin 60 → Color 24

/-- What each LED shows after reset. DESIGN CHOICE (free value): unspecified (R17, D16), log entry 5. -/
opaque Config.ledAtReset : Fin 60 → Color 24

end Sys2Proof
end

