-- ==== Sys2Proof/Machine/Reference.lean ====
section
/-! DEFINITION. The reference values of the parameters (R5, R73, R81, R91) and the configuration the
machine runs in. DESIGN CHOICE: none of these values is the source document's, log entry 7. -/

namespace Sys2Proof.Machine

/-- The reference ROM image of R73, codes 0x20 to 0x4F; 0x92 is the undefined sentinel. -/
def referenceCharmapLow : List Pattern :=
  [0x00, 0x92, 0x92, 0x92, 0x92, 0x92, 0x92, 0x92, 0x92, 0x92, 0x92, 0x92, 0x92, 0x80, 0x92, 0x92] ++
  [0x7E, 0x0C, 0xB6, 0x9E, 0xCC, 0xDA, 0xFA, 0x0E, 0xFE, 0xDE, 0x92, 0x92, 0x92, 0x92, 0x92, 0x92] ++
  [0x92, 0xEE, 0xF8, 0x92, 0x92, 0x92, 0x92, 0x92, 0xEC, 0x92, 0x92, 0x92, 0x92, 0x92, 0x92, 0x92]

/-- The reference ROM image of R73, all 96 codes; 0x50 to 0x7F are unassigned. -/
def referenceCharmap : Vector Pattern 96 :=
  ⟨(referenceCharmapLow ++ List.replicate 48 0x92).toArray, by decide⟩

/-- The reference geometry of R81: letter order, two consecutive pixels each, the decimal point last. -/
def referenceGeom : Vector (Vector GeomEntry 2) 8 :=
  #v[#v[14, noPixel], #v[0, 1], #v[2, 3], #v[4, 5], #v[6, 7], #v[8, 9], #v[10, 11], #v[12, 13]]

/-- The reference parameters at the reference Color width (R5, D6); the luminance has no reference
value. -/
def referenceParams : Params 24 where
  charmap := referenceCharmap
  undefPattern := 0x92
  geom := referenceGeom
  colorWarn := 0xFF8000
  colorOpen := 0x00FF00
  colorClosed := 0xFF0000
  luminance := Config.openLuminance

/-- The configuration the machine runs in. -/
def config : Config 24 := ⟨referenceParams, by decide +kernel⟩

end Sys2Proof.Machine
end

