-- ==== Sys2Proof/Machine/State.lean ====
section
/-! DEFINITION. The state of the block and of the sink (`10_state.md`), the response and event types,
and the state after the reset sequence (`70_reset_and_hazards.md` R131, R132). -/

namespace Sys2Proof.Machine

/-- The status of a response (R58). -/
inductive Status where
  | done
  | skipped
  deriving DecidableEq, Repr

/-- The status code: DONE is 0, SKIPPED is 1 (R58). -/
def Status.code : Status → BitVec 1
  | .done => 0
  | .skipped => 1

/-- What the block hands the host when a command ends: `respond(status, data)` (R58). -/
structure Response where
  status : Status
  data : BitVec 8
  deriving DecidableEq, Repr

/-- An event of the sink trace (R9, R19). -/
inductive SinkEvent (width : Nat) where
  /-- `Lum(l)`: `setLuminance(l)` was called. -/
  | lum (level : Level)
  /-- `Commit(frame)`: `commit()` was called with this buffer content. -/
  | commit (frame : PixelBuffer width)
  deriving DecidableEq, Repr

/-- Everything the spec gives the machine, and the two ends of the command port, for a Color of any
width (R5). -/
structure StateOf (width : Nat) where
  /-- `COUNT`, two's complement (R10). -/
  count : Count
  /-- `ISOPEN`, true means open (R11). -/
  isOpen : Bool
  /-- `PIX`, the pixel buffer (R16). -/
  pix : PixelBuffer width
  /-- `LED`, the last committed frame, inside the sink (R17). -/
  led : PixelBuffer width
  /-- `LUM`, the luminance level, inside the sink (R18). -/
  lum : Level
  /-- The sink trace, oldest event first (R19). -/
  trace : List (SinkEvent width)
  /-- The responses handed to the host, oldest first (R58). DESIGN CHOICE: the model's record of the
  response port, which the hardware does not keep, log entry 3. -/
  responses : List Response
  /-- The command words the host presents, next one first (R50). DESIGN CHOICE: the model's form of the
  command port, log entry 1. -/
  pending : List CommandWord
  deriving DecidableEq, Repr

/-- The state of the machine behind the command port: a Color has the reference width, which the layout
of the command word assumes (R51), DESIGN CHOICE, log entry 9. -/
structure State extends StateOf 24 where
  deriving DecidableEq, Repr

/-- The block raises no exception (R110): no constructor, nothing raises one. -/
inductive Fault where
  deriving DecidableEq, Repr

/-- A command the model gives no meaning to. -/
inductive Refusal where
  /-- Raised by an arm of `exec` for a command that has no meaning yet; safe. No arm does so. -/
  | notModelled (mnemonic : String)
  deriving DecidableEq, Repr

/-- The state after the reset sequence (R131, R132), the command port idle. `pix` and `led` are free
values: the spec leaves them unspecified (R16, R17), log entries 4 and 5. -/
def State.reset : State where
  count := 0
  isOpen := false
  pix := Vector.ofFn Config.pixAtReset
  led := Vector.ofFn Config.ledAtReset
  lum := config.luminance
  trace := [.lum config.luminance]
  responses := []
  pending := []

end Sys2Proof.Machine
end

