-- ==== Sys2Proof/Machine/Operands.lean ====
section
/-! DEFINITION. The three address spaces (`20_memory.md` R30 to R36): reading the character ROM and the
geometry ROM, addressing the strip, and the character codes the formatter uses. The operand forms of
the commands are fields of the word and are read by the decoder (R53). -/

namespace Sys2Proof.Machine

variable {width : Nat}

/-- `Lookup(c)` (R33, R71): the ROM entry inside the span 0x20 to 0x7F, else the sentinel. -/
def lookup (cfg : Config width) (c : CharCode) : Pattern :=
  if h : 0x20 ≤ c.toNat ∧ c.toNat ≤ 0x7F then cfg.charmap[c.toNat - 0x20]'(by omega)
  else cfg.undefPattern

/-- `MemRead(GEOM:b.s, 1)` (R34). -/
def geomRead (cfg : Config width) (b : Fin 8) (s : Fin 2) : GeomEntry := cfg.geom[b][s]

/-- `base(p)` (R35): the lowest pixel index of the block of position `p`. -/
def blockBase (p : Position) : Nat := (3 - p.val) * 15

/-- The pixel address of offset `o` in the block of position `p` (R35). -/
def pixelAddress (p : Position) (o : Nat) : Nat := blockBase p + o

/-- The pattern bits in the pseudocode's order (R82, step 3). -/
def patternBits : List (Fin 8) := [0, 1, 2, 3, 4, 5, 6, 7]

/-- The offsets one pattern bit lights: its slots, the sentinel skipped (R82, step 3). -/
def slotOffsets (cfg : Config width) (b : Fin 8) : List Nat :=
  ([0, 1] : List (Fin 2)).filterMap fun s =>
    if geomRead cfg b s = noPixel then none else some (geomRead cfg b s).toNat

/-- The offsets a pattern lights, in the pseudocode's order (R82, step 3). -/
def litOffsets (cfg : Config width) (pat : Pattern) : List Nat :=
  patternBits.flatMap fun b => if pat.getLsbD b.val then slotOffsets cfg b else []

/-- The code of the space character (R6). -/
def charSpace : CharCode := 0x20

/-- The code of the hyphen-minus (R6). -/
def charHyphen : CharCode := 0x2D

/-- The code of the letter H (R6). -/
def charH : CharCode := 0x48

/-- `'0' + d` (R75, R92). -/
def charDigit (d : Nat) : CharCode := 0x30 + BitVec.ofNat 8 d

end Sys2Proof.Machine
end

