-- ==== Sys2Proof/Machine/Ops.lean ====
section
/-! DEFINITION. The operations on the state: the command and response ports (R50, R58), the three sink
operations (R119), `Render` (R82) and the reset sequence (R131). Exception entry and return do not
exist on this hardware (R110, R115). -/

namespace Sys2Proof.Machine

variable {width : Nat}

/-- One `setPixel(index, color)` call (R119). -/
structure PixelWrite (width : Nat) where
  index : Nat
  color : Color width
  deriving DecidableEq, Repr

/-- `MemWrite(PIX:i, 1, c)`. An index outside the strip writes nothing; no command forms one (R36),
DESIGN CHOICE, log entry 11. -/
def setPixel (pix : PixelBuffer width) (w : PixelWrite width) : PixelBuffer width :=
  pix.setIfInBounds w.index w.color

/-- A sequence of `setPixel` calls, first one first. Irreducible, so that no proof runs a whole `Render`
by unfolding; its laws stand in `Laws/Ops.lean`. -/
@[irreducible] def applyWrites (ws : List (PixelWrite width)) (pix : PixelBuffer width) :
    PixelBuffer width :=
  ws.foldl setPixel pix

/-- Step 2 of `Render` (R82): every pixel of the block off. -/
def clearWrites (p : Position) : List (PixelWrite width) :=
  (List.range 15).map fun o => ⟨pixelAddress p o, off⟩

/-- Step 3 of `Render` (R82): the pixels of every set bit in one colour. -/
def lightWrites (cfg : Config width) (p : Position) (pat : Pattern) (col : Color width) :
    List (PixelWrite width) :=
  (litOffsets cfg pat).map fun o => ⟨pixelAddress p o, col⟩

/-- The `setPixel` calls of `Render(p, pat, col)` in the canonical order (R82, R85). -/
def renderWrites (cfg : Config width) (p : Position) (pat : Pattern) (col : Color width) :
    List (PixelWrite width) :=
  clearWrites p ++ lightWrites cfg p pat col

/-- What `Render(p, pat, col)` makes of the pixel buffer (R82). -/
def renderBuffer (cfg : Config width) (p : Position) (pat : Pattern) (col : Color width)
    (pix : PixelBuffer width) : PixelBuffer width :=
  applyWrites (renderWrites cfg p pat col) pix

/-- The four digit positions in the pseudocode's order (R90, R92). -/
def positions : List Position := [0, 1, 2, 3]

/-- The four `Render` calls of a format command (R90, R92). -/
def renderCells (cfg : Config width) (cells : Cells width) (pix : PixelBuffer width) :
    PixelBuffer width :=
  positions.foldl (fun b p => renderBuffer cfg p cells[p].pat cells[p].col b) pix

/-- `Render(p, pat, col)` on the state: only `PIX` changes (R82). -/
def StateOf.render (cfg : Config width) (p : Position) (pat : Pattern) (col : Color width)
    (s : StateOf width) : StateOf width :=
  { s with pix := renderBuffer cfg p pat col s.pix }

/-- `SinkCommit()` (R84): `LED <- PIX`, one `Commit` event. -/
def StateOf.sinkCommit (s : StateOf width) : StateOf width :=
  { s with led := s.pix, trace := s.trace ++ [.commit s.pix] }

/-- `SinkLum(l)` (R119): `LUM <- l`, one `Lum` event. -/
def StateOf.sinkLum (level : Level) (s : StateOf width) : StateOf width :=
  { s with lum := level, trace := s.trace ++ [.lum level] }

/-- The end of `FormatText` and `FormatNumber` (R90, R92, R93): render the four cells, commit once. -/
def StateOf.showCells (cfg : Config width) (cells : Cells width) (s : StateOf width) :
    StateOf width :=
  StateOf.sinkCommit { s with pix := renderCells cfg cells s.pix }

/-- `COUNT <- v` (R7). -/
def StateOf.setCount (v : Count) (s : StateOf width) : StateOf width := { s with count := v }

/-- `ISOPEN <- v` (R7). -/
def StateOf.setIsOpen (v : Bool) (s : StateOf width) : StateOf width := { s with isOpen := v }

/-- `respond(status, data)` (R58). -/
def StateOf.respond (status : Status) (data : BitVec 8) (s : StateOf width) : StateOf width :=
  { s with responses := s.responses ++ [⟨status, data⟩] }

/-- A reserved encoding is skipped: nothing but the response (R54). -/
def StateOf.skip (s : StateOf width) : StateOf width := s.respond .skipped 0x00

/-- The end of every legal command but LOOKUP (R58). -/
def StateOf.finish (s : StateOf width) : StateOf width := s.respond .done 0x00

/-- The reset sequence (R131): `PIX` and `LED` are not written, nothing is rendered or committed. -/
def StateOf.resetSequence (cfg : Config width) (s : StateOf width) : StateOf width :=
  ((s.setCount 0).setIsOpen false).sinkLum cfg.luminance

/-- The host presents command words after the ones it has presented before (R50, R134). -/
def StateOf.present (ws : List CommandWord) (s : StateOf width) : StateOf width :=
  { s with pending := s.pending ++ ws }

/-- The block accepts the next command word, if the host presents one (R50). -/
def StateOf.accept (s : StateOf width) : Option (CommandWord × StateOf width) :=
  match s.pending with
  | [] => none
  | w :: rest => some (w, { s with pending := rest })

end Sys2Proof.Machine
end

