-- ==== Sys2Proof/Machine/Charmap.lean ====
section
/-! DEFINITION. LOOKUP (`40_charmap.md` R74). -/

namespace Sys2Proof.Machine

variable {width : Nat}

/-- LOOKUP in any configuration (R74). -/
def lookupCommand (cfg : Config width) (c : CharCode) (s : StateOf width) : StateOf width :=
  s.respond .done (lookup cfg c)

/-- LOOKUP. -/
def execLookup (c : CharCode) (s : State) : Host.Outcome State Fault Refusal :=
  .next ⟨lookupCommand config c s.toStateOf⟩

end Sys2Proof.Machine
end

