-- ==== Sys2Proof/Machine/Drawing.lean ====
section
/-! DEFINITION. RENDER and COMMIT (`41_render.md` R83, R84). -/

namespace Sys2Proof.Machine

variable {width : Nat}

/-- RENDER in any configuration (R83). -/
def renderCommand (cfg : Config width) (pos : Position) (pat : Pattern) (col : Color width)
    (s : StateOf width) : StateOf width :=
  (s.render cfg pos pat col).finish

/-- RENDER. -/
def execRender (pos : Position) (pat : Pattern) (col : Color 24) (s : State) :
    Host.Outcome State Fault Refusal :=
  .next ⟨renderCommand config pos pat col s.toStateOf⟩

/-- COMMIT (R84), the same in every configuration. -/
def commitCommand (s : StateOf width) : StateOf width := s.sinkCommit.finish

/-- COMMIT. -/
def execCommit (s : State) : Host.Outcome State Fault Refusal := .next ⟨commitCommand s.toStateOf⟩

end Sys2Proof.Machine
end

