-- ==== Sys2Proof/Machine/Format.lean ====
section
/-! DEFINITION. The display frame formatter, FMTNUM and FMTTEXT (`42_format.md`). -/

namespace Sys2Proof.Machine

variable {width : Nat}

/-- The cell of text position `i`: the character there, or blank beyond the text's length (R90). -/
def textCell (cfg : Config width) (len : Nat) (i : Nat) (c : CharCode) (col : Color width) : Cell width :=
  if i < len then ⟨lookup cfg c, col⟩ else ⟨blank, col⟩

/-- The four cells of `FormatText(len, c0, c1, c2, c3, col)` (R90). -/
def textCells (cfg : Config width) (len : Nat) (c0 c1 c2 c3 : CharCode) (col : Color width) : Cells width :=
  #v[textCell cfg len 0 c0 col, textCell cfg len 1 c1 col, textCell cfg len 2 c2 col,
     textCell cfg len 3 c3 col]

/-- `FormatText(len, c0, c1, c2, c3, col)` (R90). -/
def formatText (cfg : Config width) (len : Nat) (c0 c1 c2 c3 : CharCode) (col : Color width)
    (s : StateOf width) : StateOf width :=
  s.showCells cfg (textCells cfg len c0 c1 c2 c3 col)

/-- The state colour `st` (R91). -/
def stateColor (cfg : Config width) (isOpen : Bool) : Color width :=
  if isOpen then cfg.colorOpen else cfg.colorClosed

/-- A leading digit's cell: its numeral when the magnitude needs it, else the zero pattern in the
warning colour, not through the ROM (R92 rule 3, R96). -/
def leadingCell (cfg : Config width) (needed : Bool) (d : Nat) (st : Color width) : Cell width :=
  if needed then ⟨lookup cfg (charDigit d), st⟩ else ⟨blank, cfg.colorWarn⟩

/-- The units cell: always a numeral, with the decimal point forced on when closed (R92). -/
def unitsCell (cfg : Config width) (d : Nat) (isOpen : Bool) : Cell width :=
  ⟨lookup cfg (charDigit d) ||| (if isOpen then 0x00 else 0x01), stateColor cfg isOpen⟩

/-- The four cells of an in-range count, 0 to 9999 (R92 rule 3). -/
def numeralCells (cfg : Config width) (n : Nat) (isOpen : Bool) : Cells width :=
  #v[leadingCell cfg (decide (n > 999)) (n / 1000) (stateColor cfg isOpen),
     leadingCell cfg (decide (n > 99)) (n / 100 % 10) (stateColor cfg isOpen),
     leadingCell cfg (decide (n > 9)) (n / 10 % 10) (stateColor cfg isOpen),
     unitsCell cfg (n % 10) isOpen]

/-- The four cells of `FormatNumber(n, o)`, first match wins (R92); the out-of-range texts are the text
formatter's (R97). -/
def numberCells (cfg : Config width) (n : Count) (isOpen : Bool) : Cells width :=
  if n.toInt < 0 then textCells cfg 4 charSpace charHyphen charHyphen charSpace cfg.colorWarn
  else if 9999 < n.toInt then textCells cfg 4 charSpace charH charH charSpace cfg.colorWarn
  else numeralCells cfg n.toNat isOpen

/-- `FormatNumber(n, o)` (R92): one commit on every path (R93). -/
def formatNumber (cfg : Config width) (n : Count) (isOpen : Bool) (s : StateOf width) :
    StateOf width :=
  s.showCells cfg (numberCells cfg n isOpen)

/-- FMTNUM in any configuration (R94). -/
def fmtnumCommand (cfg : Config width) (count : Count) (isOpen : Bool) (s : StateOf width) :
    StateOf width :=
  (formatNumber cfg count isOpen s).finish

/-- FMTNUM. -/
def execFmtnum (count : Count) (isOpen : Bool) (s : State) : Host.Outcome State Fault Refusal :=
  .next ⟨fmtnumCommand config count isOpen s.toStateOf⟩

/-- FMTTEXT in any configuration; a length above 4 is skipped before any effect (R95, R114). -/
def fmttextCommand (cfg : Config width) (len : BitVec 3) (c0 c1 c2 c3 : CharCode)
    (col : Color width) (s : StateOf width) : StateOf width :=
  if 4 < len.toNat then s.skip else (formatText cfg len.toNat c0 c1 c2 c3 col s).finish

/-- FMTTEXT. -/
def execFmttext (len : BitVec 3) (c0 c1 c2 c3 : CharCode) (col : Color 24) (s : State) :
    Host.Outcome State Fault Refusal :=
  .next ⟨fmttextCommand config len c0 c1 c2 c3 col s.toStateOf⟩

end Sys2Proof.Machine
end

