-- ==== Sys2Proof/Machine/Update.lean ====
section
/-! DEFINITION. The holding-register updates, SETCOUNT and SETSTATE (`43_update.md`). -/

namespace Sys2Proof.Machine

variable {width : Nat}

/-- `FormatNumber(COUNT, ISOPEN)`: the re-render of an update (R100, R101). -/
def showRegisters (cfg : Config width) (s : StateOf width) : StateOf width :=
  formatNumber cfg s.count s.isOpen s

/-- SETCOUNT in any configuration: the register first, then the frame (R100). -/
def setcountCommand (cfg : Config width) (count : Count) (s : StateOf width) : StateOf width :=
  (showRegisters cfg (s.setCount count)).finish

/-- SETCOUNT. -/
def execSetcount (count : Count) (s : State) : Host.Outcome State Fault Refusal :=
  .next ⟨setcountCommand config count s.toStateOf⟩

/-- SETSTATE in any configuration: the register first, then the frame (R101). -/
def setstateCommand (cfg : Config width) (isOpen : Bool) (s : StateOf width) : StateOf width :=
  (showRegisters cfg (s.setIsOpen isOpen)).finish

/-- SETSTATE. -/
def execSetstate (isOpen : Bool) (s : State) : Host.Outcome State Fault Refusal :=
  .next ⟨setstateCommand config isOpen s.toStateOf⟩

end Sys2Proof.Machine
end

