-- ==== Sys2Proof/Machine/Dispatch.lean ====
section
/-! DEFINITION. The dispatch: one arm per command (`30_encoding.md` R52). -/

namespace Sys2Proof.Machine

def exec (i : Instr) (s : State) : Host.Outcome State Fault Refusal :=
  match i with
  | .lookup c => Sys2Proof.Machine.execLookup c s
  | .render pos pat col => Sys2Proof.Machine.execRender pos pat col s
  | .commit => Sys2Proof.Machine.execCommit s
  | .fmtnum count isOpen => Sys2Proof.Machine.execFmtnum count isOpen s
  | .fmttext len c0 c1 c2 c3 col => Sys2Proof.Machine.execFmttext len c0 c1 c2 c3 col s
  | .setcount count => Sys2Proof.Machine.execSetcount count s
  | .setstate isOpen => Sys2Proof.Machine.execSetstate isOpen s

end Sys2Proof.Machine
end

