-- ==== Sys2Proof/Machine/Step.lean ====
section
/-! DEFINITION. One step: one whole command (`00_scope.md` R8, `70_reset_and_hazards.md` R134). -/

namespace Sys2Proof.Machine

/-- The block takes the next command word and runs it to completion; a reserved encoding is skipped
(R54). With no command presented it idles, all state held (R118, R134), DESIGN CHOICE: the idle step is
the model's, log entry 2. -/
def step (s : State) : Host.Outcome State Fault Refusal :=
  match s.toStateOf.accept with
  | none => .next s
  | some (w, t) =>
    match decode w with
    | .ok i => exec i ⟨t⟩
    | .error _ => .next ⟨t.skip⟩

/-- The host presents the word before every other it has queued, so that the next step takes it. -/
def State.withFetchWord (s : State) (nbits w : Nat) : State :=
  { s with pending := BitVec.ofNat 64 (w % 2 ^ nbits) :: s.pending }

end Sys2Proof.Machine
end

