-- ==== Sys2Proof/Machine/Command.lean ====
section
/-! DEFINITION. The seven commands in ANY configuration, so that a claim can quantify over every
parameter value that meets the constraints (`00_scope.md` section 1, R5). The width of a Color is the
one the command word's layout assumes (R51); each command's own definition takes any width. -/

namespace Sys2Proof.Machine

/-- What a command does in the configuration `cfg` (R52); `exec` is this in the reference one. -/
def command (cfg : Config 24) (i : Instr) (s : StateOf 24) : StateOf 24 :=
  match i with
  | .lookup c => lookupCommand cfg c s
  | .render pos pat col => renderCommand cfg pos pat col s
  | .commit => commitCommand s
  | .fmtnum count isOpen => fmtnumCommand cfg count isOpen s
  | .fmttext len c0 c1 c2 c3 col => fmttextCommand cfg len c0 c1 c2 c3 col s
  | .setcount count => setcountCommand cfg count s
  | .setstate isOpen => setstateCommand cfg isOpen s

end Sys2Proof.Machine
end

