-- ==== Sys2Proof/Safety.lean ====
section
/-! DEFINITION. The terms claims are stated in: what may be observed (`00_scope.md` R9), which pixels a
pattern lights (`41_render.md` R86), which words are reserved (`30_encoding.md` R54, R55), and what it
means that the sink agrees with its trace (`10_state.md` R17 to R19). -/

namespace Sys2Proof.Safety

open Sys2Proof.Machine

variable {width : Nat}

/-- What a claim can be stated over (R9). -/
structure Observation (width : Nat) where
  responses : List Response
  count : Count
  isOpen : Bool
  pix : PixelBuffer width
  trace : List (SinkEvent width)
  deriving DecidableEq, Repr

/-- The observation of a state (R9). -/
def observe (s : StateOf width) : Observation width :=
  ⟨s.responses, s.count, s.isOpen, s.pix, s.trace⟩

/-- A reserved encoding, read off the bits of the word (R54). -/
abbrev IsReserved (w : CommandWord) : Prop :=
  w.extractLsb' 60 4 = 0 ∨ 8 ≤ (w.extractLsb' 60 4).toNat ∨
    (w.extractLsb' 60 4 = 5 ∧ 5 ≤ (w.extractLsb' 56 3).toNat)

/-- The character slots of a text of length `len`: `c_i` for `i < len` (R51, R55). -/
def slotMask (len : Nat) : CommandWord :=
  if len = 0 then 0
  else if len = 1 then 0x00FF000000000000
  else if len = 2 then 0x00FFFF0000000000
  else if len = 3 then 0x00FFFFFF00000000
  else 0x00FFFFFFFF000000

/-- The bits of a word the block looks at: every other bit is reserved or an unused character slot,
and ignored (R51, R55). -/
def significantMask (w : CommandWord) : CommandWord :=
  let op := w.extractLsb' 60 4
  if op = 1 then 0xF0000000000000FF
  else if op = 2 then 0xF0000003FFFFFFFF
  else if op = 3 then 0xF000000000000000
  else if op = 4 then 0xF00000000001FFFF
  else if op = 5 then 0xF700000000FFFFFF ||| slotMask (w.extractLsb' 56 3).toNat
  else if op = 6 then 0xF00000000000FFFF
  else 0xF000000000010000

/-- Offset `o` of a block is lit by the pattern: some set bit has it in one of its slots (R86). -/
abbrev Lit (cfg : Config width) (pat : Pattern) (o : Nat) : Prop :=
  ∃ b : Fin 8, ∃ k : Fin 2, pat.getLsbD b.val = true ∧ (cfg.geom[b][k]).toNat = o

/-- The buffer shows the pattern in the colour at position `p`: lit offsets in the colour, every other
pixel of the block off (R35, R86). -/
def ShowsAt (cfg : Config width) (p : Position) (pat : Pattern) (col : Color width) (frame : PixelBuffer width) : Prop :=
  ∀ (i o : Nat) (h : i < 60), o < 15 → i = (3 - p.val) * 15 + o →
    frame[i] = if Lit cfg pat o then col else off

/-- The buffer shows the four cells (R90, R92). -/
def ShowsCells (cfg : Config width) (cells : Cells width) (frame : PixelBuffer width) : Prop :=
  ∀ p : Position, ShowsAt cfg p cells[p].pat cells[p].col frame

/-- The cells of `FormatNumber(n, o)` as R92 gives them, first match wins: the fixed texts out of range;
in range, `d0` to `d3` the decimal digits of the count, suppressed leading positions the zero pattern in
the warning colour (R96), the decimal point forced on the units of a closed display (R92, R97). -/
def CellsOfNumber (cfg : Config width) (n : Count) (isOpen : Bool) (cells : Cells width) : Prop :=
  (n.toInt < 0 →
    cells = #v[⟨lookup cfg 0x20, cfg.colorWarn⟩, ⟨lookup cfg 0x2D, cfg.colorWarn⟩,
      ⟨lookup cfg 0x2D, cfg.colorWarn⟩, ⟨lookup cfg 0x20, cfg.colorWarn⟩]) ∧
  (9999 < n.toInt →
    cells = #v[⟨lookup cfg 0x20, cfg.colorWarn⟩, ⟨lookup cfg 0x48, cfg.colorWarn⟩,
      ⟨lookup cfg 0x48, cfg.colorWarn⟩, ⟨lookup cfg 0x20, cfg.colorWarn⟩]) ∧
  ∀ d0 d1 d2 d3 : Nat, d0 < 10 → d1 < 10 → d2 < 10 → d3 < 10 →
    n.toInt = ((1000 * d0 + 100 * d1 + 10 * d2 + d3 : Nat) : Int) →
    let st : Color width := if isOpen = true then cfg.colorOpen else cfg.colorClosed
    let digit (d : Nat) : CharCode := BitVec.ofNat 8 (0x30 + d)
    let leading (needed : Prop) [Decidable needed] (d : Nat) : Cell width :=
      if needed then ⟨lookup cfg (digit d), st⟩ else ⟨blank, cfg.colorWarn⟩
    cells = #v[leading (999 < n.toInt) d0, leading (99 < n.toInt) d1, leading (9 < n.toInt) d2,
      ⟨lookup cfg (digit d3) ||| (if isOpen = true then 0x00 else 0x01), st⟩]

/-- The commands that end with a commit: COMMIT and the four format commands, a text of legal length
only (R40, R93, R95). -/
def commits : Instr → Bool
  | .lookup _ => false
  | .render _ _ _ => false
  | .commit => true
  | .fmtnum _ _ => true
  | .fmttext len _ _ _ _ _ => decide (len.toNat ≤ 4)
  | .setcount _ => true
  | .setstate _ => true

/-- The constraints of R5 and R80 in the spec's own words. -/
def SpecLegal (p : Params width) : Prop :=
  p.undefPattern ≠ 0x00 ∧ p.colorOpen ≠ p.colorClosed ∧
    (∀ b : Fin 8, (p.geom[b][0]).toNat ≤ 14) ∧
    (∀ b : Fin 8, (p.geom[b][1]).toNat ≤ 14 ∨ p.geom[b][1] = 0xFFFF) ∧
    p.geom[0][1] = 0xFFFF ∧
    (∀ b : Fin 8, b ≠ 0 → (p.geom[b][1]).toNat ≤ 14) ∧
    ∀ (b b' : Fin 8) (k k' : Fin 2), (p.geom[b][k]).toNat ≤ 14 → p.geom[b][k] = p.geom[b'][k'] →
      b = b' ∧ k = k'

/-- Pixel `i` lies outside the block of position `p` (R35, R36). -/
abbrev OutsideBlock (p : Position) (i : Nat) : Prop :=
  i < (3 - p.val) * 15 ∨ (3 - p.val) * 15 + 15 ≤ i

/-- The last frame a trace commits, oldest event first. -/
def lastFrame : List (SinkEvent width) → Option (PixelBuffer width)
  | [] => none
  | .lum _ :: rest => lastFrame rest
  | .commit f :: rest => (lastFrame rest).or (some f)

/-- No event sets the luminance. -/
def noLum : List (SinkEvent width) → Bool
  | [] => true
  | .lum _ :: _ => false
  | .commit _ :: rest => noLum rest

/-- The sink agrees with its trace: the luminance was set once, first, to the level the sink holds
(R18, R144), and the LEDs show the last committed frame (R17). -/
def SinkConsistent (s : StateOf width) : Prop :=
  (∃ events, s.trace = .lum s.lum :: events ∧ noLum events = true) ∧
    ∀ f, lastFrame s.trace = some f → s.led = f

/-- The frames two states show may differ, nothing else a command reads or hands back does. -/
def AgreeButPixels (s t : StateOf width) : Prop :=
  s.count = t.count ∧ s.isOpen = t.isOpen ∧ s.lum = t.lum ∧ s.responses = t.responses ∧
    s.pending = t.pending

end Sys2Proof.Safety
end

