-- ==== Sys2Proof/Certificates/Slice0/Obligations.lean ====
section
/-! DEFINITION. The statements for the provers, from the numbered rules of `spec/`. -/

open Sys2Proof Sys2Proof.Machine Sys2Proof.Safety

/-! ### The command word -/

/-- R51 to R53: no bit of a legal command is lost between encoder and decoder. -/
def Obligations.DecodeOfEncodeIsTheCommand : Prop :=
  ∀ i : Instr, i.wellFormed = true → decode (encode i) = .ok i

/-- R51, R55: a decoded command encodes to its word with the bits its format does not list zero. -/
def Obligations.EncodeOfDecodeKeepsTheFormatBits : Prop :=
  ∀ (w : CommandWord) (i : Instr), decode w = .ok i →
    i.wellFormed = true ∧ encode i = w &&& i.formatMask

/-- R52, R54: the decoder refuses exactly the reserved encodings. -/
def Obligations.DecodeRefusesExactlyReservedWords : Prop :=
  ∀ w : CommandWord, (∃ r, decode w = .error r) ↔ IsReserved w

/-- R54: a reserved encoding changes nothing and is answered SKIPPED. -/
def Obligations.ReservedWordsAreSkipped : Prop :=
  ∀ (s : State) (w : CommandWord) (rest : List CommandWord), s.pending = w :: rest → IsReserved w →
    step s = .next { s with pending := rest, responses := s.responses ++ [⟨.skipped, 0x00⟩] }

/-- R55: reserved bits and unused character slots make no difference. -/
def Obligations.IgnoredBitsChangeNothing : Prop :=
  ∀ (s : State) (w v : CommandWord) (rest : List CommandWord), ¬IsReserved w →
    w &&& significantMask w = v &&& significantMask w →
    step { s with pending := w :: rest } = step { s with pending := v :: rest }

/-- R50, R39: a step runs the decoded command, the word taken off the port. -/
def Obligations.StepRunsTheDecodedCommand : Prop :=
  ∀ (s : State) (w : CommandWord) (rest : List CommandWord) (i : Instr), s.pending = w :: rest →
    decode w = .ok i → step s = exec i { s with pending := rest }

/-- R110, R50, R58: every step answers a next state; it takes one word and gives one response, or idles.
The idle step is the model's choice, log entry 2. -/
def Obligations.EveryStepCompletesWithOneResponse : Prop :=
  ∀ s : State, ∃ t : State, step s = .next t ∧ t.pending = s.pending.tail ∧
    (s.pending = [] → t = s) ∧
    (s.pending ≠ [] → ∃ r : Response, t.responses = s.responses ++ [r])

/-- Words written out in the spec decode to the commands they stand for (V11, V50a, V51, V3, V6, V60,
V61). -/
def Obligations.WordsOfTheSpecDecode : Prop :=
  decode 0x1000000000000037 = .ok (.lookup 0x37) ∧
    decode 0x200000030EFF0000 = .ok (.render 3 0x0E 0xFF0000) ∧
    decode 0x3000000000000000 = .ok .commit ∧
    decode 0x400000000001FFFF = .ok (.fmtnum 0xFFFF true) ∧
    decode 0x52414200000000FF = .ok (.fmttext 2 0x41 0x42 0x00 0x00 0x0000FF) ∧
    decode 0x600000000000002A = .ok (.setcount 42) ∧
    decode 0x7000000000010000 = .ok (.setstate true)

/-- R58: what each command answers. -/
def Obligations.EachCommandRespondsOnce : Prop :=
  Status.done.code = 0 ∧ Status.skipped.code = 1 ∧
    (∀ (c : CharCode) (s t : State), exec (.lookup c) s = .next t →
      t.responses = s.responses ++ [⟨.done, lookup config c⟩]) ∧
    (∀ (i : Instr) (s t : State), i.wellFormed = true → (∀ c, i ≠ .lookup c) → exec i s = .next t →
      t.responses = s.responses ++ [⟨.done, 0x00⟩]) ∧
    ∀ (s t : State) (w : CommandWord) (rest : List CommandWord), s.pending = w :: rest →
      IsReserved w → step s = .next t → t.responses = s.responses ++ [⟨.skipped, 0x00⟩]

/-! ### The configuration -/

/-- R5, D25: exactly the parameters that meet the constraints make a configuration. -/
def Obligations.IllFormedConfigurationsAreRefused : Prop :=
  ∀ (width : Nat) (p : Params width),
    (∃ cfg, Config.ofParams p = .ok cfg ∧ cfg.toParams = p) ↔ SpecLegal p

/-- R5, R80: every offset of a block is the content of exactly one slot. -/
def Obligations.EveryOffsetHasOneSlot : Prop :=
  ∀ (width : Nat) (cfg : Config width) (o : Nat), o < 15 →
    ∃ slot : Fin 8 × Fin 2, (geomRead cfg slot.1 slot.2).toNat = o ∧
      ∀ other : Fin 8 × Fin 2, (geomRead cfg other.1 other.2).toNat = o → other = slot

/-! ### LOOKUP -/

/-- R71: the table entry inside the span, the sentinel outside it. -/
def Obligations.LookupFollowsTheSpan : Prop :=
  ∀ (width : Nat) (cfg : Config width) (c : CharCode),
    (∀ (k : Nat) (h : k < 96), c.toNat = 0x20 + k → lookup cfg c = cfg.charmap[k]) ∧
    (c.toNat < 0x20 ∨ 0x7F < c.toNat → lookup cfg c = cfg.undefPattern)

/-- R74: LOOKUP answers the pattern and changes nothing else. -/
def Obligations.LookupCommandOnlyResponds : Prop :=
  (∀ w : CommandWord, w.extractLsb' 60 4 = 0x1 → decode w = .ok (.lookup (w.extractLsb' 0 8))) ∧
    (∀ (c : CharCode) (s : State),
      exec (.lookup c) s = .next { s with responses := s.responses ++ [⟨.done, lookup config c⟩] }) ∧
    (∀ (width : Nat) (cfg : Config width),
      lookup cfg 0x1F = cfg.undefPattern ∧ lookup cfg 0x80 = cfg.undefPattern ∧
      lookup cfg 0x20 = cfg.charmap[0] ∧ lookup cfg 0x7F = cfg.charmap[95]) ∧
    lookup config 0x37 = 0x0E

/-- R72, R111: a character outside the span, or unassigned, shows a glyph that lights some pixel. -/
def Obligations.UndefinedGlyphIsVisible : Prop :=
  ∀ (width : Nat) (cfg : Config width) (p : Position) (c : CharCode) (col : Color width)
      (pix : PixelBuffer width), col ≠ off →
    lookup cfg c = cfg.undefPattern →
    ∃ (i : Nat) (h : i < 60), ¬OutsideBlock p i ∧
      (renderBuffer cfg p (lookup cfg c) col pix)[i] = col

/-! ### RENDER -/

/-- R82: the block is cleared, then lit; every other pixel and all other state is as before. -/
def Obligations.RenderClearsThenLights : Prop :=
  ∀ (width : Nat) (cfg : Config width) (p : Position) (pat : Pattern) (col : Color width)
      (s : StateOf width),
    ShowsAt cfg p pat col (s.render cfg p pat col).pix ∧
    (∀ (i : Nat) (h : i < 60), OutsideBlock p i → (s.render cfg p pat col).pix[i] = s.pix[i]) ∧
    s.render cfg p pat col = { s with pix := (s.render cfg p pat col).pix }

/-- R83: RENDER draws one digit block into the buffer and nothing else. -/
def Obligations.RenderCommandDrawsOneDigit : Prop :=
  (∀ w : CommandWord, w.extractLsb' 60 4 = 0x2 →
    decode w = .ok (.render (w.extractLsb' 32 2).toFin (w.extractLsb' 24 8) (w.extractLsb' 0 24))) ∧
    ∀ (p : Position) (pat : Pattern) (col : Color 24) (s : State), ∃ drawn : PixelBuffer 24,
      exec (.render p pat col) s =
        .next { s with pix := drawn, responses := s.responses ++ [⟨.done, 0x00⟩] } ∧
      ShowsAt config p pat col drawn ∧
      ∀ (i : Nat) (h : i < 60), OutsideBlock p i → drawn[i] = s.pix[i]

/-- R87 (a), (c), an inference of the spec: a later render of a position replaces an earlier one. -/
def Obligations.RenderReplacesAnEarlierRender : Prop :=
  ∀ (width : Nat) (cfg : Config width) (p : Position) (pat pat' : Pattern) (col col' : Color width)
      (pix : PixelBuffer width),
    renderBuffer cfg p pat' col' (renderBuffer cfg p pat col pix) = renderBuffer cfg p pat' col' pix

/-- R87 (b), an inference of the spec: renders of different positions commute. -/
def Obligations.RendersOfDifferentPositionsCommute : Prop :=
  ∀ (width : Nat) (cfg : Config width) (p q : Position) (pat pat' : Pattern)
      (col col' : Color width) (pix : PixelBuffer width),
    p ≠ q →
    renderBuffer cfg q pat' col' (renderBuffer cfg p pat col pix) =
      renderBuffer cfg p pat col (renderBuffer cfg q pat' col' pix)

/-- R87 (d), an inference of the spec: different patterns light different pixels. -/
def Obligations.DifferentPatternsLightDifferentPixels : Prop :=
  ∀ (width : Nat) (cfg : Config width) (p : Position) (pat pat' : Pattern) (col : Color width)
      (pix : PixelBuffer width), col ≠ off →
    renderBuffer cfg p pat col pix = renderBuffer cfg p pat' col pix → pat = pat'

/-- R87 (d), an inference of the spec: two pixels for each set segment bit, one for the decimal point. -/
def Obligations.LitPixelCount : Prop :=
  ∀ (width : Nat) (cfg : Config width) (p : Position) (pat : Pattern) (col : Color width)
      (pix : PixelBuffer width), col ≠ off →
    ((List.range 15).filter fun o =>
        (renderBuffer cfg p pat col pix)[(3 - p.val) * 15 + o]? == some col).length =
      2 * ((List.range 7).filter fun k => pat.getLsbD (k + 1)).length +
        (if pat.getLsbD 0 = true then 1 else 0)

/-- R36, an inference of the spec: every pixel a render addresses lies in the position's block and on
the strip, and the four blocks partition the strip. -/
def Obligations.PixelAddressesStayInTheBlock : Prop :=
  (∀ (width : Nat) (cfg : Config width) (p : Position) (pat : Pattern) (col : Color width)
      (w : PixelWrite width),
    w ∈ renderWrites cfg p pat col → w.index < 60 ∧ ¬OutsideBlock p w.index) ∧
    ∀ i : Nat, i < 60 → ∃ p : Position, ¬OutsideBlock p i ∧
      ∀ q : Position, ¬OutsideBlock q i → q = p

/-- R85, R146: the clearing calls come first, 15 of them, then at most 15 lighting calls. -/
def Obligations.RenderClearsBeforeItLights : Prop :=
  ∀ (width : Nat) (cfg : Config width) (p : Position) (pat : Pattern) (col : Color width),
    ∃ clears lights : List (PixelWrite width), renderWrites cfg p pat col = clears ++ lights ∧
      clears.length = 15 ∧ (∀ w ∈ clears, w.color = off) ∧
      (∀ o, o < 15 → ∃ w ∈ clears, w.index = (3 - p.val) * 15 + o) ∧
      lights.length ≤ 15 ∧ ∀ w ∈ lights, w.color = col

/-! ### COMMIT -/

/-- R84: COMMIT copies the buffer to the LEDs and leaves one event. -/
def Obligations.CommitCommandShowsTheBuffer : Prop :=
  (∀ w : CommandWord, w.extractLsb' 60 4 = 0x3 → decode w = .ok .commit) ∧
    ∀ s : State, exec .commit s =
      .next { s with led := s.pix, trace := s.trace ++ [.commit s.pix],
                     responses := s.responses ++ [⟨.done, 0x00⟩] }

/-- R141, an inference of the spec: a commit after one render shows the old buffer elsewhere. -/
def Obligations.PartialFrameKeepsTheOtherDigits : Prop :=
  ∀ (width : Nat) (cfg : Config width) (p : Position) (pat : Pattern) (col : Color width)
      (s : StateOf width), ∃ frame : PixelBuffer width,
    (commitCommand (renderCommand cfg p pat col s)).trace = s.trace ++ [.commit frame] ∧
    (commitCommand (renderCommand cfg p pat col s)).led = frame ∧ ShowsAt cfg p pat col frame ∧
    ∀ (i : Nat) (h : i < 60), OutsideBlock p i → frame[i] = s.pix[i]

/-! ### FMTTEXT -/

/-- R90: the text formatter shows its characters, blanks beyond the length, and commits once. -/
def Obligations.FormatTextShowsItsCharacters : Prop :=
  ∀ (width : Nat) (cfg : Config width) (len : Nat) (c0 c1 c2 c3 : CharCode) (col : Color width)
      (s : StateOf width), len ≤ 4 →
    ∃ frame : PixelBuffer width,
      formatText cfg len c0 c1 c2 c3 col s =
        { s with pix := frame, led := frame, trace := s.trace ++ [.commit frame] } ∧
      ∀ p : Position,
        ShowsAt cfg p (if p.val < len then lookup cfg (#v[c0, c1, c2, c3])[p] else 0x00) col frame

/-- R95: FMTTEXT shows up to four characters; a longer text is skipped. -/
def Obligations.FmttextShowsUpToFourCharacters : Prop :=
  (∀ w : CommandWord, w.extractLsb' 60 4 = 0x5 → (w.extractLsb' 56 3).toNat ≤ 4 →
    decode w = .ok (.fmttext (w.extractLsb' 56 3) (w.extractLsb' 48 8) (w.extractLsb' 40 8)
      (w.extractLsb' 32 8) (w.extractLsb' 24 8) (w.extractLsb' 0 24))) ∧
  (∀ (s : State) (w : CommandWord) (rest : List CommandWord), s.pending = w :: rest →
    w.extractLsb' 60 4 = 0x5 → 4 < (w.extractLsb' 56 3).toNat →
    step s = .next { s with pending := rest, responses := s.responses ++ [⟨.skipped, 0x00⟩] }) ∧
  (∀ (len : BitVec 3) (c0 c1 c2 c3 : CharCode) (col : Color 24) (s : State), 4 < len.toNat →
    exec (.fmttext len c0 c1 c2 c3 col) s =
      .next { s with responses := s.responses ++ [⟨.skipped, 0x00⟩] }) ∧
  ∀ (len : BitVec 3) (c0 c1 c2 c3 : CharCode) (col : Color 24) (s : State), len.toNat ≤ 4 →
    ∃ frame : PixelBuffer 24,
      exec (.fmttext len c0 c1 c2 c3 col) s =
        .next { s with pix := frame, led := frame, trace := s.trace ++ [.commit frame],
                       responses := s.responses ++ [⟨.done, 0x00⟩] } ∧
      ∀ p : Position,
        ShowsAt config p (if p.val < len.toNat then lookup config (#v[c0, c1, c2, c3])[p] else 0x00)
          col frame

/-! ### FMTNUM -/

/-- R92: the number formatter shows the cells of its rules and commits once. -/
def Obligations.FormatNumberShowsItsCells : Prop :=
  ∀ (width : Nat) (cfg : Config width) (n : Count) (isOpen : Bool) (s : StateOf width),
      ∃ (cells : Cells width) (frame : PixelBuffer width),
    CellsOfNumber cfg n isOpen cells ∧ ShowsCells cfg cells frame ∧
    formatNumber cfg n isOpen s =
      { s with pix := frame, led := frame, trace := s.trace ++ [.commit frame] }

/-- R93: every format path commits exactly once, a frame of its arguments and the constants alone. -/
def Obligations.FormattersCommitOneFrame : Prop :=
  (∀ (width : Nat) (cfg : Config width) (len : Nat) (c0 c1 c2 c3 : CharCode) (col : Color width),
      len ≤ 4 →
    ∃ frame : PixelBuffer width, ∀ s : StateOf width,
      formatText cfg len c0 c1 c2 c3 col s =
        { s with pix := frame, led := frame, trace := s.trace ++ [.commit frame] }) ∧
    ∀ (width : Nat) (cfg : Config width) (n : Count) (isOpen : Bool),
      ∃ frame : PixelBuffer width, ∀ s : StateOf width,
      formatNumber cfg n isOpen s =
        { s with pix := frame, led := frame, trace := s.trace ++ [.commit frame] }

/-- R94: FMTNUM shows its operands and leaves the registers alone. -/
def Obligations.FmtnumShowsItsOperands : Prop :=
  (∀ w : CommandWord, w.extractLsb' 60 4 = 0x4 →
    decode w = .ok (.fmtnum (w.extractLsb' 0 16) (w.getLsbD 16))) ∧
    ∀ (n : Count) (isOpen : Bool) (s : State), ∃ (cells : Cells 24) (frame : PixelBuffer 24),
      CellsOfNumber config n isOpen cells ∧ ShowsCells config cells frame ∧
      exec (.fmtnum n isOpen) s =
        .next { s with pix := frame, led := frame, trace := s.trace ++ [.commit frame],
                       responses := s.responses ++ [⟨.done, 0x00⟩] }

/-- R97, with the cells of R91 and R92: in range the flag decides the decimal-point overlay on the units
and the colour of every numeral, and nothing else; out of range it decides nothing. -/
def Obligations.FlagMattersOnlyInRange : Prop :=
  ∀ (width : Nat) (cfg : Config width) (n : Count),
    (n.toInt < 0 ∨ 9999 < n.toInt → ∀ isOpen : Bool,
      numberCells cfg n isOpen =
        #v[⟨lookup cfg 0x20, cfg.colorWarn⟩,
           ⟨lookup cfg (if n.toInt < 0 then 0x2D else 0x48), cfg.colorWarn⟩,
           ⟨lookup cfg (if n.toInt < 0 then 0x2D else 0x48), cfg.colorWarn⟩,
           ⟨lookup cfg 0x20, cfg.colorWarn⟩]) ∧
    (0 ≤ n.toInt → n.toInt ≤ 9999 →
      cfg.colorOpen ≠ cfg.colorClosed ∧
      (∀ units : Nat, units < 10 → n.toInt % 10 = units →
        (numberCells cfg n true)[3] =
          ⟨lookup cfg (BitVec.ofNat 8 (0x30 + units)), cfg.colorOpen⟩ ∧
        (numberCells cfg n false)[3] =
          ⟨lookup cfg (BitVec.ofNat 8 (0x30 + units)) ||| 0x01, cfg.colorClosed⟩) ∧
      ∀ p : Position, p ≠ 3 →
        let shownOpen := (numberCells cfg n true)[p]
        let shownClosed := (numberCells cfg n false)[p]
        shownOpen.pat = shownClosed.pat ∧
        if (10 : Int) ^ (3 - p.val) ≤ n.toInt then
          shownOpen.col = cfg.colorOpen ∧ shownClosed.col = cfg.colorClosed
        else shownOpen = ⟨0x00, cfg.colorWarn⟩ ∧ shownClosed = ⟨0x00, cfg.colorWarn⟩)

/-- R98 (a) to (c), an inference of the spec: for both values of the flag the numerals, rightmost, spell
the count in decimal, in the state colour, the last one with the overlay of a closed display (R92). -/
def Obligations.NumeralsSpellTheCount : Prop :=
  ∀ (width : Nat) (cfg : Config width) (n : Nat) (isOpen : Bool), n < 10000 →
    let stateCol : Color width := if isOpen = true then cfg.colorOpen else cfg.colorClosed
    let numeral (ch : Char) (overlay : Pattern) : Cell width :=
      ⟨lookup cfg (BitVec.ofNat 8 ch.toNat) ||| overlay, stateCol⟩
    ∃ (leading : List Char) (units : Char), Nat.toDigits 10 n = leading ++ [units] ∧
      (numberCells cfg (BitVec.ofNat 16 n) isOpen).toList =
        List.replicate (3 - leading.length) ⟨0x00, cfg.colorWarn⟩ ++
          leading.map (fun ch => numeral ch 0x00) ++
          [numeral units (if isOpen = true then 0x00 else 0x01)]

/-! ### SETCOUNT and SETSTATE -/

/-- R100: SETCOUNT stores the count, then shows it with the flag. -/
def Obligations.SetcountStoresThenShows : Prop :=
  (∀ w : CommandWord, w.extractLsb' 60 4 = 0x6 → decode w = .ok (.setcount (w.extractLsb' 0 16))) ∧
    ∀ (n : Count) (s : State), ∃ (cells : Cells 24) (frame : PixelBuffer 24),
      CellsOfNumber config n s.isOpen cells ∧ ShowsCells config cells frame ∧
      exec (.setcount n) s =
        .next { s with count := n, pix := frame, led := frame, trace := s.trace ++ [.commit frame],
                       responses := s.responses ++ [⟨.done, 0x00⟩] }

/-- R101: SETSTATE stores the flag, then shows the count with it. -/
def Obligations.SetstateStoresThenShows : Prop :=
  (∀ w : CommandWord, w.extractLsb' 60 4 = 0x7 → decode w = .ok (.setstate (w.getLsbD 16))) ∧
    ∀ (isOpen : Bool) (s : State), ∃ (cells : Cells 24) (frame : PixelBuffer 24),
      CellsOfNumber config s.count isOpen cells ∧ ShowsCells config cells frame ∧
      exec (.setstate isOpen) s =
        .next { s with isOpen := isOpen, pix := frame, led := frame,
                       trace := s.trace ++ [.commit frame],
                       responses := s.responses ++ [⟨.done, 0x00⟩] }

/-- R102: whichever of the two updates comes last, the display shows the latest value of each. -/
def Obligations.DisplayReflectsTheLatestOfBoth : Prop :=
  ∀ (width : Nat) (cfg : Config width) (n : Count) (isOpen : Bool) (s : StateOf width),
    let countFirst := setstateCommand cfg isOpen (setcountCommand cfg n s)
    let flagFirst := setcountCommand cfg n (setstateCommand cfg isOpen s)
    let shown := (fmtnumCommand cfg n isOpen s).led
    countFirst.count = n ∧ countFirst.isOpen = isOpen ∧ countFirst.led = shown ∧
      flagFirst.count = n ∧ flagFirst.isOpen = isOpen ∧ flagFirst.led = shown

/-- R142, an inference of the spec: changing both commits the intermediate combination too. -/
def Obligations.IntermediateFrameIsCommitted : Prop :=
  ∀ (width : Nat) (cfg : Config width) (n : Count) (isOpen : Bool) (s : StateOf width),
    ∃ (between after : Cells width) (frame frame' : PixelBuffer width),
      CellsOfNumber cfg n s.isOpen between ∧ ShowsCells cfg between frame ∧
      CellsOfNumber cfg n isOpen after ∧ ShowsCells cfg after frame' ∧
      (setstateCommand cfg isOpen (setcountCommand cfg n s)).trace =
        s.trace ++ [.commit frame, .commit frame']

/-- R10, R11, R103: COUNT is written by SETCOUNT only, ISOPEN by SETSTATE only. -/
def Obligations.OnlyUpdatesWriteTheRegisters : Prop :=
  ∀ (i : Instr) (s t : State), exec i s = .next t →
    ((∀ n, i ≠ .setcount n) → t.count = s.count) ∧ ((∀ o, i ≠ .setstate o) → t.isOpen = s.isOpen)

/-- R143, R103: whatever was shown before, an update shows the number the registers hold. -/
def Obligations.UpdatesReplaceWhateverWasShown : Prop :=
  ∀ (cfg : Config 24) (i : Instr) (n : Count) (isOpen : Bool) (s : StateOf 24),
    ((∀ o, i ≠ .setstate o) →
      (setcountCommand cfg n (command cfg i s)).led = (setcountCommand cfg n s).led) ∧
    ((∀ m, i ≠ .setcount m) →
      (setstateCommand cfg isOpen (command cfg i s)).led = (setstateCommand cfg isOpen s).led)

/-! ### The whole machine -/

/-- R18, R144: no command sets the luminance. -/
def Obligations.NoCommandSetsTheLuminance : Prop :=
  ∀ (i : Instr) (s t : State), exec i s = .next t →
    t.lum = s.lum ∧ ∃ events, t.trace = s.trace ++ events ∧ noLum events = true

/-- R40, R84, R93: a command that commits does so once, with the buffer it leaves; any other leaves the
LEDs and the trace alone. -/
def Obligations.OnlyCommitsReachTheSink : Prop :=
  ∀ (cfg : Config 24) (i : Instr) (s : StateOf 24),
    if commits i = true then
      (command cfg i s).trace = s.trace ++ [.commit (command cfg i s).pix] ∧
        (command cfg i s).led = (command cfg i s).pix
    else (command cfg i s).trace = s.trace ∧ (command cfg i s).led = s.led

/-- R16, R17, R38: what the buffer and the LEDs hold never reaches a register, a response or the port. -/
def Obligations.PixelsNeverLeakIntoAnythingElse : Prop :=
  ∀ s t : State, AgreeButPixels s.toStateOf t.toStateOf →
    ∃ s' t' : State, step s = .next s' ∧ step t = .next t' ∧ AgreeButPixels s'.toStateOf t'.toStateOf

/-- R9, R17, R18: what the LEDs and the luminance hold never reaches anything a claim can observe. -/
def Obligations.SinkStateNeverReachesTheObservation : Prop :=
  ∀ s t : State, observe s.toStateOf = observe t.toStateOf → s.pending = t.pending →
    ∃ s' t' : State, step s = .next s' ∧ step t = .next t' ∧
      observe s'.toStateOf = observe t'.toStateOf ∧ s'.pending = t'.pending

/-- R17 to R19: every step keeps the sink in agreement with its trace. -/
def Obligations.EveryStepKeepsTheSinkConsistent : Prop :=
  ∀ s t : State, SinkConsistent s.toStateOf → step s = .next t → SinkConsistent t.toStateOf

/-- R18, R19, R131: after reset the sink trace is the one `Lum` event, no frame has been committed, and
the sink agrees with its trace. -/
def Obligations.ResetSinkIsConsistent : Prop :=
  State.reset.trace = [.lum State.reset.lum] ∧ lastFrame State.reset.trace = none ∧
    SinkConsistent State.reset.toStateOf

/-- R134: as many steps as commands are presented answer them all, one response each. Several words
waiting on the port (log entry 1) and the list of responses that is counted (log entry 3) are the
model's: the spec has one command at a time (R50, R135) and keeps no response (R58). -/
def Obligations.ARunAnswersEveryCommand : Prop :=
  ∀ s : State, ∃ t : State, Host.Core.run Sys2Proof.core s.pending.length s = .next t ∧
    t.pending = [] ∧ t.responses.length = s.responses.length + s.pending.length

/-- R39, R114: commands run in the order presented, so what is presented later changes nothing of what
came before. Words presented behind words that wait are the model's command port, log entry 1: the
spec has one command at a time (R50, R135). -/
def Obligations.LaterCommandsDoNotChangeEarlierOnes : Prop :=
  ∀ (s t : State) (later : List CommandWord),
    Host.Core.run Sys2Proof.core s.pending.length s = .next t →
    Host.Core.run Sys2Proof.core s.pending.length ⟨s.present later⟩ = .next ⟨t.present later⟩

/-- R131: the reset sequence sets the two registers and the luminance and touches nothing else. -/
def Obligations.ResetSequenceSetsTheRegisters : Prop :=
  ∀ (width : Nat) (cfg : Config width) (s : StateOf width),
    s.resetSequence cfg =
      { s with count := 0, isOpen := false, lum := cfg.luminance,
               trace := s.trace ++ [.lum cfg.luminance] }

/-- The model's reset state is what the reset sequence leaves of any power-on content of the registers
(R130, R131), with the values of R132. The buffer, the LEDs, the level and the empty ports are the
model's, log entries 1, 3, 4, 5 and 6; nothing rests on what the free values are. -/
def Obligations.ResetStateIsWhatTheSequenceLeaves : Prop :=
  (∀ (n : Count) (isOpen : Bool) (level : Level),
    State.reset.toStateOf = StateOf.resetSequence config
      { State.reset.toStateOf with count := n, isOpen := isOpen, lum := level, trace := [] }) ∧
    State.reset.count.toInt = 0 ∧ State.reset.isOpen = false ∧
    State.reset.trace = [.lum State.reset.lum] ∧ State.reset.lum = config.luminance
end

