-- ==== Sys2Proof/Laws/Decode.lean ====
section
/-! SUPPORT. What the decoder reads from a word of each opcode, said once (`30_encoding.md` R52, R54). -/

namespace Sys2Proof

theorem decode_of_opcode1 (w : CommandWord) (h : opcodeField w = 0x1) :
    decode w = .ok (decodeLookup w) := by
  unfold decode; rw [h]; rfl

theorem decode_of_opcode2 (w : CommandWord) (h : opcodeField w = 0x2) :
    decode w = .ok (decodeRender w) := by
  unfold decode; rw [h]; rfl

theorem decode_of_opcode3 (w : CommandWord) (h : opcodeField w = 0x3) : decode w = .ok .commit := by
  unfold decode; rw [h]; rfl

theorem decode_of_opcode4 (w : CommandWord) (h : opcodeField w = 0x4) :
    decode w = .ok (decodeFmtnum w) := by
  unfold decode; rw [h]; rfl

theorem decode_of_opcode5 (w : CommandWord) (h : opcodeField w = 0x5) :
    decode w = if (w.extractLsb' 56 3).toNat ≤ 4 then .ok (decodeFmttext w)
      else .error (.textLength (w.extractLsb' 56 3)) := by
  unfold decode; rw [h]; rfl

theorem decode_of_opcode6 (w : CommandWord) (h : opcodeField w = 0x6) :
    decode w = .ok (decodeSetcount w) := by
  unfold decode; rw [h]; rfl

theorem decode_of_opcode7 (w : CommandWord) (h : opcodeField w = 0x7) :
    decode w = .ok (decodeSetstate w) := by
  unfold decode; rw [h]; rfl

/-- Opcodes 0x0 and 0x8 to 0xF are refused by name. -/
theorem decode_of_otherOpcode (w : CommandWord)
    (h : opcodeField w = 0x0 ∨ 8 ≤ (opcodeField w).toNat) :
    decode w = .error (.opcode (opcodeField w)) := by
  unfold decode
  generalize opcodeField w = op at h
  split <;> simp_all

/-- The opcode of a word is one of the seven or none of them. -/
theorem opcode_cases (op : BitVec 4) :
    op = 0x1 ∨ op = 0x2 ∨ op = 0x3 ∨ op = 0x4 ∨ op = 0x5 ∨ op = 0x6 ∨ op = 0x7 ∨
      (op = 0x0 ∨ 8 ≤ op.toNat) := by
  revert op
  decide

end Sys2Proof
end

