-- ==== Sys2Proof/Laws/State.lean ====
section
/-! SUPPORT. Each update of the state, field by field: what it writes and what it leaves. -/

namespace Sys2Proof.Machine

variable {width : Nat} (s : StateOf width)

@[simp] theorem StateOf.render_count (cfg : Config width) (p : Position) (pat : Pattern)
    (col : Color width) :
    (s.render cfg p pat col).count = s.count := rfl
@[simp] theorem StateOf.render_isOpen (cfg : Config width) (p : Position) (pat : Pattern)
    (col : Color width) :
    (s.render cfg p pat col).isOpen = s.isOpen := rfl
@[simp] theorem StateOf.render_pix (cfg : Config width) (p : Position) (pat : Pattern)
    (col : Color width) :
    (s.render cfg p pat col).pix = renderBuffer cfg p pat col s.pix := rfl
@[simp] theorem StateOf.render_led (cfg : Config width) (p : Position) (pat : Pattern)
    (col : Color width) :
    (s.render cfg p pat col).led = s.led := rfl
@[simp] theorem StateOf.render_lum (cfg : Config width) (p : Position) (pat : Pattern)
    (col : Color width) :
    (s.render cfg p pat col).lum = s.lum := rfl
@[simp] theorem StateOf.render_trace (cfg : Config width) (p : Position) (pat : Pattern)
    (col : Color width) :
    (s.render cfg p pat col).trace = s.trace := rfl
@[simp] theorem StateOf.render_responses (cfg : Config width) (p : Position) (pat : Pattern)
    (col : Color width) :
    (s.render cfg p pat col).responses = s.responses := rfl
@[simp] theorem StateOf.render_pending (cfg : Config width) (p : Position) (pat : Pattern)
    (col : Color width) :
    (s.render cfg p pat col).pending = s.pending := rfl

@[simp] theorem StateOf.sinkCommit_count : (s.sinkCommit).count = s.count := rfl
@[simp] theorem StateOf.sinkCommit_isOpen : (s.sinkCommit).isOpen = s.isOpen := rfl
@[simp] theorem StateOf.sinkCommit_pix : (s.sinkCommit).pix = s.pix := rfl
@[simp] theorem StateOf.sinkCommit_led : (s.sinkCommit).led = s.pix := rfl
@[simp] theorem StateOf.sinkCommit_lum : (s.sinkCommit).lum = s.lum := rfl
@[simp] theorem StateOf.sinkCommit_trace : (s.sinkCommit).trace = s.trace ++ [.commit s.pix] := rfl
@[simp] theorem StateOf.sinkCommit_responses : (s.sinkCommit).responses = s.responses := rfl
@[simp] theorem StateOf.sinkCommit_pending : (s.sinkCommit).pending = s.pending := rfl

@[simp] theorem StateOf.sinkLum_count (l : Level) : (s.sinkLum l).count = s.count := rfl
@[simp] theorem StateOf.sinkLum_isOpen (l : Level) : (s.sinkLum l).isOpen = s.isOpen := rfl
@[simp] theorem StateOf.sinkLum_pix (l : Level) : (s.sinkLum l).pix = s.pix := rfl
@[simp] theorem StateOf.sinkLum_led (l : Level) : (s.sinkLum l).led = s.led := rfl
@[simp] theorem StateOf.sinkLum_lum (l : Level) : (s.sinkLum l).lum = l := rfl
@[simp] theorem StateOf.sinkLum_trace (l : Level) : (s.sinkLum l).trace = s.trace ++ [.lum l] := rfl
@[simp] theorem StateOf.sinkLum_responses (l : Level) : (s.sinkLum l).responses = s.responses := rfl
@[simp] theorem StateOf.sinkLum_pending (l : Level) : (s.sinkLum l).pending = s.pending := rfl

@[simp] theorem StateOf.showCells_count (cfg : Config width) (cells : Cells width) :
    (s.showCells cfg cells).count = s.count := rfl
@[simp] theorem StateOf.showCells_isOpen (cfg : Config width) (cells : Cells width) :
    (s.showCells cfg cells).isOpen = s.isOpen := rfl
@[simp] theorem StateOf.showCells_pix (cfg : Config width) (cells : Cells width) :
    (s.showCells cfg cells).pix = renderCells cfg cells s.pix := rfl
@[simp] theorem StateOf.showCells_led (cfg : Config width) (cells : Cells width) :
    (s.showCells cfg cells).led = renderCells cfg cells s.pix := rfl
@[simp] theorem StateOf.showCells_lum (cfg : Config width) (cells : Cells width) :
    (s.showCells cfg cells).lum = s.lum := rfl
@[simp] theorem StateOf.showCells_trace (cfg : Config width) (cells : Cells width) :
    (s.showCells cfg cells).trace = s.trace ++ [.commit (renderCells cfg cells s.pix)] := rfl
@[simp] theorem StateOf.showCells_responses (cfg : Config width) (cells : Cells width) :
    (s.showCells cfg cells).responses = s.responses := rfl
@[simp] theorem StateOf.showCells_pending (cfg : Config width) (cells : Cells width) :
    (s.showCells cfg cells).pending = s.pending := rfl

@[simp] theorem StateOf.setCount_count (v : Count) : (s.setCount v).count = v := rfl
@[simp] theorem StateOf.setCount_isOpen (v : Count) : (s.setCount v).isOpen = s.isOpen := rfl
@[simp] theorem StateOf.setCount_pix (v : Count) : (s.setCount v).pix = s.pix := rfl
@[simp] theorem StateOf.setCount_led (v : Count) : (s.setCount v).led = s.led := rfl
@[simp] theorem StateOf.setCount_lum (v : Count) : (s.setCount v).lum = s.lum := rfl
@[simp] theorem StateOf.setCount_trace (v : Count) : (s.setCount v).trace = s.trace := rfl
@[simp] theorem StateOf.setCount_responses (v : Count) :
    (s.setCount v).responses = s.responses := rfl
@[simp] theorem StateOf.setCount_pending (v : Count) : (s.setCount v).pending = s.pending := rfl

@[simp] theorem StateOf.setIsOpen_count (v : Bool) : (s.setIsOpen v).count = s.count := rfl
@[simp] theorem StateOf.setIsOpen_isOpen (v : Bool) : (s.setIsOpen v).isOpen = v := rfl
@[simp] theorem StateOf.setIsOpen_pix (v : Bool) : (s.setIsOpen v).pix = s.pix := rfl
@[simp] theorem StateOf.setIsOpen_led (v : Bool) : (s.setIsOpen v).led = s.led := rfl
@[simp] theorem StateOf.setIsOpen_lum (v : Bool) : (s.setIsOpen v).lum = s.lum := rfl
@[simp] theorem StateOf.setIsOpen_trace (v : Bool) : (s.setIsOpen v).trace = s.trace := rfl
@[simp] theorem StateOf.setIsOpen_responses (v : Bool) :
    (s.setIsOpen v).responses = s.responses := rfl
@[simp] theorem StateOf.setIsOpen_pending (v : Bool) : (s.setIsOpen v).pending = s.pending := rfl

@[simp] theorem StateOf.respond_count (st : Status) (d : BitVec 8) :
    (s.respond st d).count = s.count := rfl
@[simp] theorem StateOf.respond_isOpen (st : Status) (d : BitVec 8) :
    (s.respond st d).isOpen = s.isOpen := rfl
@[simp] theorem StateOf.respond_pix (st : Status) (d : BitVec 8) :
    (s.respond st d).pix = s.pix := rfl
@[simp] theorem StateOf.respond_led (st : Status) (d : BitVec 8) :
    (s.respond st d).led = s.led := rfl
@[simp] theorem StateOf.respond_lum (st : Status) (d : BitVec 8) :
    (s.respond st d).lum = s.lum := rfl
@[simp] theorem StateOf.respond_trace (st : Status) (d : BitVec 8) :
    (s.respond st d).trace = s.trace := rfl
@[simp] theorem StateOf.respond_responses (st : Status) (d : BitVec 8) :
    (s.respond st d).responses = s.responses ++ [⟨st, d⟩] := rfl
@[simp] theorem StateOf.respond_pending (st : Status) (d : BitVec 8) :
    (s.respond st d).pending = s.pending := rfl

@[simp] theorem StateOf.skip_count : (s.skip).count = s.count := rfl
@[simp] theorem StateOf.skip_isOpen : (s.skip).isOpen = s.isOpen := rfl
@[simp] theorem StateOf.skip_pix : (s.skip).pix = s.pix := rfl
@[simp] theorem StateOf.skip_led : (s.skip).led = s.led := rfl
@[simp] theorem StateOf.skip_lum : (s.skip).lum = s.lum := rfl
@[simp] theorem StateOf.skip_trace : (s.skip).trace = s.trace := rfl
@[simp] theorem StateOf.skip_responses :
    (s.skip).responses = s.responses ++ [⟨.skipped, 0x00⟩] := rfl
@[simp] theorem StateOf.skip_pending : (s.skip).pending = s.pending := rfl

@[simp] theorem StateOf.finish_count : (s.finish).count = s.count := rfl
@[simp] theorem StateOf.finish_isOpen : (s.finish).isOpen = s.isOpen := rfl
@[simp] theorem StateOf.finish_pix : (s.finish).pix = s.pix := rfl
@[simp] theorem StateOf.finish_led : (s.finish).led = s.led := rfl
@[simp] theorem StateOf.finish_lum : (s.finish).lum = s.lum := rfl
@[simp] theorem StateOf.finish_trace : (s.finish).trace = s.trace := rfl
@[simp] theorem StateOf.finish_responses :
    (s.finish).responses = s.responses ++ [⟨.done, 0x00⟩] := rfl
@[simp] theorem StateOf.finish_pending : (s.finish).pending = s.pending := rfl

@[simp] theorem StateOf.present_count (ws : List CommandWord) :
    (s.present ws).count = s.count := rfl
@[simp] theorem StateOf.present_isOpen (ws : List CommandWord) :
    (s.present ws).isOpen = s.isOpen := rfl
@[simp] theorem StateOf.present_pix (ws : List CommandWord) : (s.present ws).pix = s.pix := rfl
@[simp] theorem StateOf.present_led (ws : List CommandWord) : (s.present ws).led = s.led := rfl
@[simp] theorem StateOf.present_lum (ws : List CommandWord) : (s.present ws).lum = s.lum := rfl
@[simp] theorem StateOf.present_trace (ws : List CommandWord) :
    (s.present ws).trace = s.trace := rfl
@[simp] theorem StateOf.present_responses (ws : List CommandWord) :
    (s.present ws).responses = s.responses := rfl
@[simp] theorem StateOf.present_pending (ws : List CommandWord) :
    (s.present ws).pending = s.pending ++ ws := rfl

@[simp] theorem StateOf.resetSequence_count (cfg : Config width) :
    (s.resetSequence cfg).count = 0 := rfl
@[simp] theorem StateOf.resetSequence_isOpen (cfg : Config width) :
    (s.resetSequence cfg).isOpen = false := rfl
@[simp] theorem StateOf.resetSequence_pix (cfg : Config width) :
    (s.resetSequence cfg).pix = s.pix := rfl
@[simp] theorem StateOf.resetSequence_led (cfg : Config width) :
    (s.resetSequence cfg).led = s.led := rfl
@[simp] theorem StateOf.resetSequence_lum (cfg : Config width) :
    (s.resetSequence cfg).lum = cfg.luminance := rfl
@[simp] theorem StateOf.resetSequence_trace (cfg : Config width) :
    (s.resetSequence cfg).trace = s.trace ++ [.lum cfg.luminance] := rfl
@[simp] theorem StateOf.resetSequence_responses (cfg : Config width) :
    (s.resetSequence cfg).responses = s.responses := rfl
@[simp] theorem StateOf.resetSequence_pending (cfg : Config width) :
    (s.resetSequence cfg).pending = s.pending := rfl

@[simp] theorem State.withFetchWord_count (s : State) (nbits w : Nat) :
    (s.withFetchWord nbits w).count = s.count := rfl
@[simp] theorem State.withFetchWord_isOpen (s : State) (nbits w : Nat) :
    (s.withFetchWord nbits w).isOpen = s.isOpen := rfl
@[simp] theorem State.withFetchWord_pix (s : State) (nbits w : Nat) :
    (s.withFetchWord nbits w).pix = s.pix := rfl
@[simp] theorem State.withFetchWord_led (s : State) (nbits w : Nat) :
    (s.withFetchWord nbits w).led = s.led := rfl
@[simp] theorem State.withFetchWord_lum (s : State) (nbits w : Nat) :
    (s.withFetchWord nbits w).lum = s.lum := rfl
@[simp] theorem State.withFetchWord_trace (s : State) (nbits w : Nat) :
    (s.withFetchWord nbits w).trace = s.trace := rfl
@[simp] theorem State.withFetchWord_responses (s : State) (nbits w : Nat) :
    (s.withFetchWord nbits w).responses = s.responses := rfl
@[simp] theorem State.withFetchWord_pending (s : State) (nbits w : Nat) :
    (s.withFetchWord nbits w).pending = BitVec.ofNat 64 (w % 2 ^ nbits) :: s.pending := rfl

end Sys2Proof.Machine
end

