-- ==== Sys2Proof/Laws/Ops.lean ====
section
/-! SUPPORT. What each shared operation can do, said once: the pixel buffer, the two ROMs, the lists
of `setPixel` calls, the cells of the number formatter. -/

namespace Sys2Proof.Machine

variable {width : Nat}

/-! ### The pixel buffer -/

@[simp] theorem setPixel_getElem (pix : PixelBuffer width) (w : PixelWrite width) (j : Nat)
    (h : j < 60) :
    (setPixel pix w)[j] = if w.index = j then w.color else pix[j] := by
  simp [setPixel, Vector.getElem_setIfInBounds]

@[simp] theorem applyWrites_nil (pix : PixelBuffer width) : applyWrites [] pix = pix := by
  simp [applyWrites]

@[simp] theorem applyWrites_cons (w : PixelWrite width) (ws : List (PixelWrite width))
    (pix : PixelBuffer width) :
    applyWrites (w :: ws) pix = applyWrites ws (setPixel pix w) := by
  simp [applyWrites]

theorem applyWrites_append (ws vs : List (PixelWrite width)) (pix : PixelBuffer width) :
    applyWrites (ws ++ vs) pix = applyWrites vs (applyWrites ws pix) := by
  simp [applyWrites]

/-- A pixel no call names keeps its colour. -/
theorem applyWrites_getElem_of_untouched (ws : List (PixelWrite width)) (pix : PixelBuffer width)
    (j : Nat) (h : j < 60) (untouched : ∀ w ∈ ws, w.index ≠ j) : (applyWrites ws pix)[j] = pix[j] := by
  induction ws generalizing pix with
  | nil => simp
  | cons w ws ih =>
    rw [applyWrites_cons, ih _ fun v hv => untouched v (List.mem_cons_of_mem w hv)]
    simp [untouched w List.mem_cons_self]

/-- When every call carries one colour, a pixel some call names has it. -/
theorem applyWrites_getElem_of_touched (ws : List (PixelWrite width)) (pix : PixelBuffer width)
    (j : Nat) (h : j < 60) (c : Color width) (one : ∀ w ∈ ws, w.color = c)
    (touched : ∃ w ∈ ws, w.index = j) :
    (applyWrites ws pix)[j] = c := by
  induction ws generalizing pix with
  | nil => simp at touched
  | cons w ws ih =>
    rw [applyWrites_cons]
    by_cases later : ∃ v ∈ ws, v.index = j
    · exact ih _ (fun v hv => one v (List.mem_cons_of_mem w hv)) later
    · rw [applyWrites_getElem_of_untouched ws _ j h fun v hv e => later ⟨v, hv, e⟩]
      obtain ⟨v, hv, e⟩ := touched
      rcases List.mem_cons.mp hv with rfl | hv
      · simp [e, one v List.mem_cons_self]
      · exact absurd ⟨v, hv, e⟩ later

/-! ### The ROMs -/

/-- Inside the span `Lookup` is the table entry. -/
theorem lookup_of_inSpan (cfg : Config width) (c : CharCode) (h : 0x20 ≤ c.toNat ∧ c.toNat ≤ 0x7F) :
    lookup cfg c = cfg.charmap[c.toNat - 0x20]'(by omega) := by
  simp only [lookup, h, and_self, dite_true]

/-- Outside the span `Lookup` is the sentinel. -/
theorem lookup_of_outOfSpan (cfg : Config width) (c : CharCode)
    (h : ¬(0x20 ≤ c.toNat ∧ c.toNat ≤ 0x7F)) :
    lookup cfg c = cfg.undefPattern := by
  simp only [lookup, h, dite_false]

/-- Every slot of a well-formed geometry is the sentinel or an offset of the block. -/
theorem geomRead_legal (cfg : Config width) (b : Fin 8) (k : Fin 2) :
    geomRead cfg b k = noPixel ∨ (geomRead cfg b k).toNat < 15 := by
  obtain ⟨-, ⟨sentinel, real, -⟩, -⟩ := cfg.legal
  simp only [Params.realOffsets, List.all_cons, List.all_nil, Bool.and_true, Bool.and_eq_true,
    decide_eq_true_eq] at real
  fin_cases b <;> fin_cases k <;> simp [geomRead, sentinel, real]

/-- The offsets a pattern lights are the non-sentinel slots of its set bits. -/
theorem mem_litOffsets (cfg : Config width) (pat : Pattern) (o : Nat) :
    o ∈ litOffsets cfg pat ↔
      ∃ b : Fin 8, ∃ k : Fin 2, pat.getLsbD b.val = true ∧ geomRead cfg b k ≠ noPixel ∧
        (geomRead cfg b k).toNat = o := by
  have bits : ∀ b : Fin 8, b ∈ patternBits := by decide
  have slots : ∀ k : Fin 2, k ∈ ([0, 1] : List (Fin 2)) := by decide
  constructor
  · intro h
    obtain ⟨b, -, h⟩ := List.mem_flatMap.mp h
    split at h
    · obtain ⟨k, -, h⟩ := List.mem_filterMap.mp h
      split at h
      · simp at h
      · exact ⟨b, k, ‹_›, ‹_›, by simpa using h⟩
    · simp at h
  · rintro ⟨b, k, set, real, rfl⟩
    refine List.mem_flatMap.mpr ⟨b, bits b, ?_⟩
    rw [if_pos set]
    exact List.mem_filterMap.mpr ⟨k, slots k, if_neg real⟩

/-! ### The cells of the number formatter -/

/-- Rule 1 of R92. -/
theorem numberCells_of_negative (cfg : Config width) (n : Count) (isOpen : Bool) (h : n.toInt < 0) :
    numberCells cfg n isOpen =
      textCells cfg 4 charSpace charHyphen charHyphen charSpace cfg.colorWarn := by
  simp only [numberCells, if_pos h]

/-- Rule 2 of R92. -/
theorem numberCells_of_large (cfg : Config width) (n : Count) (isOpen : Bool) (h : 9999 < n.toInt) :
    numberCells cfg n isOpen = textCells cfg 4 charSpace charH charH charSpace cfg.colorWarn := by
  simp only [numberCells, if_neg (show ¬n.toInt < 0 by omega), if_pos h]

/-- Rule 3 of R92. -/
theorem numberCells_of_inRange (cfg : Config width) (n : Count) (isOpen : Bool) (h0 : 0 ≤ n.toInt)
    (h : n.toInt ≤ 9999) : numberCells cfg n isOpen = numeralCells cfg n.toNat isOpen := by
  simp only [numberCells, if_neg (show ¬n.toInt < 0 by omega), if_neg (show ¬9999 < n.toInt by omega)]

/-- An in-range count read signed is the count read unsigned (R92 rule 3). -/
theorem count_toInt_of_nonneg (n : Count) (h : 0 ≤ n.toInt) : n.toInt = n.toNat := by
  rw [BitVec.toInt_eq_toNat_cond] at h ⊢
  split at h <;> split <;> omega

end Sys2Proof.Machine
end

