-- ==== Sys2Proof/Laws/PerInstr.lean ====
section
/-! SUPPORT. Per-command laws: the opcode an encoded command carries (`30_encoding.md` R51, R52). -/

namespace Sys2Proof.Laws.EncodedOpcode

/-- The encoded command has its opcode in bits 63 to 60. -/
def Statement (i : Instr) : Prop := opcodeField (encode i) = i.opcode

theorem lookup (c : CharCode) : Statement (.lookup c) := by
  apply BitVec.eq_of_getLsbD_eq
  intro k hk
  simp only [opcodeField, encode, Instr.opcode, BitVec.getLsbD_extractLsb', BitVec.getLsbD_append]
  interval_cases k <;> simp

theorem render (pos : Position) (pat : Pattern) (col : Color 24) : Statement (.render pos pat col) := by
  apply BitVec.eq_of_getLsbD_eq
  intro k hk
  simp only [opcodeField, encode, Instr.opcode, BitVec.getLsbD_extractLsb', BitVec.getLsbD_append]
  interval_cases k <;> simp

theorem commit : Statement .commit := by
  unfold Statement
  decide

theorem fmtnum (count : Count) (isOpen : Bool) : Statement (.fmtnum count isOpen) := by
  apply BitVec.eq_of_getLsbD_eq
  intro k hk
  simp only [opcodeField, encode, Instr.opcode, BitVec.getLsbD_extractLsb', BitVec.getLsbD_append]
  interval_cases k <;> simp

theorem fmttext (len : BitVec 3) (c0 c1 c2 c3 : CharCode) (col : Color 24) :
    Statement (.fmttext len c0 c1 c2 c3 col) := by
  apply BitVec.eq_of_getLsbD_eq
  intro k hk
  simp only [opcodeField, encode, Instr.opcode, BitVec.getLsbD_extractLsb', BitVec.getLsbD_append]
  interval_cases k <;> simp

theorem setcount (count : Count) : Statement (.setcount count) := by
  apply BitVec.eq_of_getLsbD_eq
  intro k hk
  simp only [opcodeField, encode, Instr.opcode, BitVec.getLsbD_extractLsb', BitVec.getLsbD_append]
  interval_cases k <;> simp

theorem setstate (isOpen : Bool) : Statement (.setstate isOpen) := by
  apply BitVec.eq_of_getLsbD_eq
  intro k hk
  simp only [opcodeField, encode, Instr.opcode, BitVec.getLsbD_extractLsb', BitVec.getLsbD_append]
  interval_cases k <;> simp

end Sys2Proof.Laws.EncodedOpcode
end

