-- ==== Sys2Proof/Laws/Step.lean ====
section
/-! SUPPORT. What one command and one step can do, said once. -/

namespace Sys2Proof.Machine

/-- Every command completes: `exec` is `command` in the reference configuration. -/
theorem exec_eq_command (i : Instr) (s : State) :
    exec i s = .next ⟨command config i s.toStateOf⟩ := by
  cases i <;> rfl

/-- What a command may have left, read off a next state of `exec`. -/
theorem exec_next_iff (i : Instr) (s t : State) :
    exec i s = .next t ↔ t.toStateOf = command config i s.toStateOf := by
  rw [exec_eq_command]
  exact ⟨fun h => (Host.Outcome.next.inj h) ▸ rfl, fun h => h ▸ rfl⟩

/-- What a command can change: one response always; the buffer; or the buffer, shown by one commit.
The luminance and the command port never. -/
theorem command_cases (cfg : Config 24) (i : Instr) (s : StateOf 24) :
    (∃ pix r, command cfg i s = { s with pix := pix, responses := s.responses ++ [r] }) ∨
      ∃ count isOpen frame r, command cfg i s =
        { s with count := count, isOpen := isOpen, pix := frame, led := frame,
                 trace := s.trace ++ [.commit frame], responses := s.responses ++ [r] } := by
  cases i with
  | lookup c => exact .inl ⟨s.pix, _, rfl⟩
  | render pos pat col => exact .inl ⟨_, _, rfl⟩
  | commit => exact .inr ⟨s.count, s.isOpen, s.pix, _, rfl⟩
  | fmtnum count isOpen => exact .inr ⟨s.count, s.isOpen, _, _, rfl⟩
  | fmttext len c0 c1 c2 c3 col =>
    simp only [command, fmttextCommand]
    split
    · exact .inl ⟨s.pix, _, rfl⟩
    · exact .inr ⟨s.count, s.isOpen, _, _, rfl⟩
  | setcount count => exact .inr ⟨count, s.isOpen, _, _, rfl⟩
  | setstate isOpen => exact .inr ⟨s.count, isOpen, _, _, rfl⟩

theorem step_of_idle (s : State) (h : s.pending = []) : step s = .next s := by
  simp [step, StateOf.accept, h]

theorem step_of_pending (s : State) (w : CommandWord) (rest : List CommandWord)
    (h : s.pending = w :: rest) :
    step s = match decode w with
      | .ok i => exec i { s with pending := rest }
      | .error _ => .next ⟨StateOf.skip { s.toStateOf with pending := rest }⟩ := by
  cases hd : decode w <;> simp only [step, StateOf.accept, h, hd]

/-- A run of `n + 1` steps whose first step answers a next state goes on from it, on any machine. -/
theorem core_run_succ (M : Host.Core) (n : Nat) (s t : M.State) (h : M.step s = .next t) :
    Host.Core.run M (n + 1) s = Host.Core.run M n t := by
  rw [Host.Core.run, h]

/-- A run of `n + 1` steps whose first step answers a next state goes on from it. -/
theorem run_succ (n : Nat) (s t : State) (h : step s = .next t) :
    Host.Core.run Sys2Proof.core (n + 1) s = Host.Core.run Sys2Proof.core n t :=
  core_run_succ Sys2Proof.core n s t h

/-- A step idles, runs the decoded command, or skips a reserved word. -/
theorem step_cases (s t : State) (h : step s = .next t) :
    (s.pending = [] ∧ t = s) ∨
      (∃ w rest i, s.pending = w :: rest ∧ decode w = .ok i ∧
        t.toStateOf = command config i { s.toStateOf with pending := rest }) ∨
      (∃ w rest r, s.pending = w :: rest ∧ decode w = .error r ∧
        t.toStateOf = StateOf.skip { s.toStateOf with pending := rest }) := by
  cases hp : s.pending with
  | nil =>
    rw [step_of_idle s hp] at h
    exact .inl ⟨rfl, (Host.Outcome.next.inj h).symm⟩
  | cons w rest =>
    rw [step_of_pending s w rest hp] at h
    cases hd : decode w with
    | ok i =>
      rw [hd] at h
      exact .inr (.inl ⟨w, rest, i, rfl, hd, (exec_next_iff _ _ _).mp h⟩)
    | error r =>
      rw [hd] at h
      exact .inr (.inr ⟨w, rest, r, rfl, hd, Host.Outcome.next.inj h ▸ rfl⟩)

end Sys2Proof.Machine
end

