-- ==== Sys2Proof/Tests/Slice0.lean ====
section
/-! SUPPORT. Tests. Expected results are the vectors of `95_test_vectors.md` and the worked examples of
the rules, named in each comment; the witnesses show that the hypotheses of the obligations are
met. -/

namespace Sys2Proof.Tests

open Sys2Proof.Machine Sys2Proof.Safety

/-! ### Helpers -/

/-- The marker buffer of the RENDER vectors. -/
def marked : PixelBuffer 24 := Vector.replicate 60 0xAAAAAA

/-- A small state with a marked buffer. -/
def start : State where
  count := 0
  isOpen := false
  pix := marked
  led := marked
  lum := 0x40
  trace := [.lum 0x40]
  responses := []
  pending := []

/-- The next state, if there is one. -/
def nextOf (o : Host.Outcome State Fault Refusal) : Option State :=
  match o with
  | .next t => some t
  | .fault _ => none
  | .refused _ => none

/-- What one step makes of a word presented to a state. -/
def after (s : State) (w : CommandWord) : Option State := nextOf (step { s with pending := [w] })

/-- A run of `n` pixels of one colour. -/
def run {width : Nat} (n : Nat) (c : Color width) : List (Color width) := List.replicate n c

/-- Parameters at another Color width (R5): 16-bit pixels, the reference ROMs. -/
def narrowParams : Params 16 where
  charmap := referenceCharmap
  undefPattern := 0x92
  geom := referenceGeom
  colorWarn := 0xFC00
  colorOpen := 0x07E0
  colorClosed := 0xF800
  luminance := 0x40

/-- A configuration at another Color width. -/
def narrow : Config 16 := ⟨narrowParams, by decide +kernel⟩

/-- A state at another Color width. -/
def narrowStart : StateOf 16 where
  count := 7
  isOpen := false
  pix := Vector.replicate 60 0xAAAA
  led := Vector.replicate 60 0xAAAA
  lum := 0x40
  trace := [.lum 0x40]
  responses := []
  pending := []

/-! ### Well-formedness -/

/-- R54: `len` 5 is reserved. -/
theorem test_wellFormed_refuses_longText :
    (Instr.fmttext 5 0x41 0x42 0x48 0x48 0x0000FF).wellFormed = false := by decide

/-- R53: `len` 4 is legal. -/
theorem test_wellFormed_accepts_fullText :
    (Instr.fmttext 4 0x41 0x42 0x48 0x48 0x0000FF).wellFormed = true := by decide

/-- R5: a blank undefined glyph is refused. -/
theorem test_config_refuses_blankSentinel :
    (Config.ofParams { referenceParams with undefPattern := 0 }).toOption.isNone = true := by
  decide +kernel

/-- R80, constraint 1: NONE in a first slot is refused. -/
theorem test_config_refuses_missingFirstPixel :
    (Config.ofParams { referenceParams with
      geom := referenceGeom.set 3 #v[noPixel, 5] }).toOption.isNone = true := by
  decide +kernel

/-- R80, constraint 4: a repeated offset is refused. -/
theorem test_config_refuses_repeatedOffset :
    (Config.ofParams { referenceParams with
      geom := referenceGeom.set 3 #v[4, 14] }).toOption.isNone = true := by
  decide +kernel

/-- R5: equal state colours are refused. -/
theorem test_config_refuses_equalColors :
    (Config.ofParams { referenceParams with colorOpen := 0xFF0000 }).toOption.isNone = true := by
  decide +kernel

/-- R5: the reference values are a configuration. -/
theorem test_config_accepts_reference :
    (Config.ofParams referenceParams).toOption.isSome = true := by
  decide +kernel

/-! ### Decoding: words written out in the spec -/

theorem test_decode_lookup : decode 0x1000000000000037 = .ok (.lookup 0x37) := by decide
theorem test_decode_render : decode 0x200000030EFF0000 = .ok (.render 3 0x0E 0xFF0000) := by decide
theorem test_decode_commit : decode 0x3000000000000000 = .ok .commit := by decide
theorem test_decode_fmtnum : decode 0x400000000001FFFF = .ok (.fmtnum 0xFFFF true) := by decide
theorem test_decode_fmttext :
    decode 0x54417E801F0000FF = .ok (.fmttext 4 0x41 0x7E 0x80 0x1F 0x0000FF) := by decide
theorem test_decode_setcount : decode 0x60000000ABC10005 = .ok (.setcount 5) := by decide
theorem test_decode_setstate : decode 0x7000000000010000 = .ok (.setstate true) := by decide
theorem test_decode_zero : decode 0x0000000000000000 = .error (.opcode 0x0) := by decide
theorem test_decode_highOpcode : decode 0xF000000000000123 = .error (.opcode 0xF) := by decide
theorem test_decode_longText : decode 0x55414248480000FF = .error (.textLength 5) := by decide

/-- V6: the assembler's `FMTTEXT "AB", 0x0000FF`. -/
theorem test_encode_text :
    (Instr.text [0x41, 0x42] 0x0000FF).map encode = some 0x52414200000000FF := by decide

/-- The lines of V36 and V6, as R57 writes them. -/
theorem test_assembly :
    (Instr.fmtnum 0xFFFF false).assembly = "FMTNUM -1, 0" ∧
      (Instr.fmttext 2 0x41 0x42 0x48 0x48 0xFF).assembly = "FMTTEXT \"AB\", 255" := by
  decide +kernel

/-- R57: no line has a text of five characters. -/
theorem test_text_tooLong : Instr.text [0x41, 0x42, 0x48, 0x48, 0x41] 0xFF = none := by decide

/-- V50d. -/
theorem test_encode_render : encode (.render 2 0x01 0x0000FF) = 0x20000002010000FF := by decide

/-- The table's row of SETSTATE, as the host numbers its bits. -/
theorem test_tableWord : decodeTableWord 64 0x7000000000000000 = some (.setstate false) := by decide

/-! ### The reference ROM, drawn from the "segments lit" column of R73 -/

theorem test_glyph_seven : lookup config 0x37 = patternOf [.a, .b, .c] := by decide
theorem test_glyph_hyphen : lookup config 0x2D = patternOf [.g] := by decide
theorem test_glyph_b : lookup config 0x42 = patternOf [.c, .d, .e, .f, .g] := by decide
theorem test_glyph_undefined : lookup config 0x6E = patternOf [.a, .d, .g] := by decide

/-- R60, D7: the warning colour is orange. -/
theorem test_color_fields :
    (Color.red config.colorWarn, Color.green config.colorWarn, Color.blue config.colorWarn) =
      (0xFF, 0x80, 0x00) := by decide

/-! ### The commands -/

/-- V11. -/
theorem test_lookup_seven :
    (after start 0x1000000000000037).map (·.responses) = some [⟨.done, 0x0E⟩] := by decide +kernel

/-- V17: one above the span. -/
theorem test_lookup_aboveSpan :
    (after start 0x1000000000000080).map (·.responses) = some [⟨.done, 0x92⟩] := by decide +kernel

/-- V50a. -/
theorem test_render_units :
    (after start 0x200000030EFF0000).map (·.pix.toList) =
      some (run 6 0xFF0000 ++ run 9 0 ++ run 45 0xAAAAAA) := by decide +kernel

/-- V50d: the decimal point alone; the sentinel slot is skipped. -/
theorem test_render_decimalPoint :
    (after start 0x20000002010000FF).map (·.pix.toList) =
      some (run 15 0xAAAAAA ++ run 14 0 ++ run 1 0x0000FF ++ run 30 0xAAAAAA) := by decide +kernel

/-- V51, the first COMMIT. -/
theorem test_commit :
    (after { start with led := Vector.replicate 60 0 } 0x3000000000000000).map
      (fun t => (t.led, t.trace)) = some (marked, [.lum 0x40, .commit marked]) := by decide +kernel

/-- V5: FMTNUM 7, 0. -/
theorem test_fmtnum_closedSeven :
    (after start 0x4000000000000007).map (·.led.toList) =
      some (run 6 0xFF0000 ++ run 8 0 ++ run 1 0xFF0000 ++ run 45 0) := by decide +kernel

/-- V5 with 16-bit pixels: the Color width is a parameter (R5). -/
theorem test_fmtnum_otherWidth :
    (fmtnumCommand narrow 7 false narrowStart).led.toList =
      run 6 0xF800 ++ run 8 0 ++ run 1 0xF800 ++ run 45 0 := by decide +kernel

/-- V3: FMTNUM -1, 1. -/
theorem test_fmtnum_negative :
    (after start 0x400000000001FFFF).map (·.led.toList) =
      some (run 27 0 ++ run 2 0xFF8000 ++ run 13 0 ++ run 2 0xFF8000 ++ run 16 0) := by
  decide +kernel

/-- V6: FMTTEXT "AB". -/
theorem test_fmttext_ab :
    (after start 0x52414200000000FF).map (·.led.toList) =
      some (run 34 0 ++ run 10 0x0000FF ++ run 1 0 ++ run 6 0x0000FF ++ run 2 0 ++
        run 6 0x0000FF ++ run 1 0) := by decide +kernel

/-- V45: a text of length 5 is skipped. -/
theorem test_fmttext_tooLong :
    after start 0x55414248480000FF = some { start with responses := [⟨.skipped, 0x00⟩] } := by
  decide +kernel

/-- V60: SETCOUNT 42 from reset, whatever the unspecified buffer holds. -/
theorem test_setcount_fromReset :
    (after State.reset 0x600000000000002A).map (fun t => (t.count, t.isOpen, t.led.toList)) =
      some (42, false, run 4 0xFF0000 ++ run 2 0 ++ run 4 0xFF0000 ++ run 2 0 ++ run 3 0xFF0000 ++
        run 2 0 ++ run 4 0xFF0000 ++ run 4 0 ++ run 4 0xFF0000 ++ run 31 0) := by decide +kernel

/-- V55: junk in reserved bits; bit 16 is not `open`. -/
theorem test_setcount_reservedBits :
    (after start 0x60000000ABC10005).map (fun t => (t.count, t.isOpen)) = some (5, false) := by
  decide +kernel

/-- V56: junk in the reserved `count` field. -/
theorem test_setstate_reservedBits :
    (after start 0x700000000000FFFF).map (fun t => (t.count, t.isOpen, t.led.toList)) =
      some (0, false, run 12 0xFF0000 ++ run 2 0 ++ run 1 0xFF0000 ++ run 45 0) := by decide +kernel

/-- V61: SETSTATE 1 with a count of 42 shows the open colour and no decimal point. -/
theorem test_setstate_open :
    (after { start with count := 42 } 0x7000000000010000).map
        (fun t => (t.count, t.isOpen, t.led.toList)) =
      some (42, true, run 4 0x00FF00 ++ run 2 0 ++ run 4 0x00FF00 ++ run 2 0 ++ run 2 0x00FF00 ++
        run 3 0 ++ run 4 0x00FF00 ++ run 4 0 ++ run 4 0x00FF00 ++ run 31 0) := by decide +kernel

/-- V52: the all-zero word. -/
theorem test_reserved_zero :
    after start 0x0000000000000000 = some { start with responses := [⟨.skipped, 0x00⟩] } := by
  decide +kernel

/-- V70. -/
theorem test_reset : State.reset.count = 0 ∧ State.reset.isOpen = false := by decide

/-- The command port: the first word placed is the one that runs. -/
theorem test_withFetchWord :
    (nextOf (step (State.reset.withFetchWord 64 0x1000000000000037))).map
      (fun t => (t.responses, t.pending)) = some ([⟨.done, 0x0E⟩], []) := by decide +kernel

/-! ### Witnesses: the hypotheses of each obligation are met -/

theorem witness_DecodeOfEncodeIsTheCommand :
    (Instr.fmttext 4 0x41 0x42 0x00 0xFF 0xFFFFFF).wellFormed = true := by decide

theorem witness_EncodeOfDecodeKeepsTheFormatBits :
    decode 0x2FFFFFFF0EFF0000 = .ok (.render 3 0x0E 0xFF0000) := by decide

theorem witness_ReservedWordsAreSkipped :
    ({ start with pending := [0] } : State).pending = [0] ∧ IsReserved 0x0000000000000000 ∧
      IsReserved 0x8000000000000000 ∧ IsReserved 0xF000000000000123 ∧
      IsReserved 0x55414248480000FF ∧ IsReserved 0x5700000000000000 := by decide +kernel

theorem witness_IgnoredBitsChangeNothing_bits :
    ¬IsReserved 0x6000000000000005 ∧
      (0x6000000000000005 : CommandWord) &&& significantMask 0x6000000000000005 =
        0x60000000ABC10005 &&& significantMask 0x6000000000000005 := by decide

/-- V44 against V6: the unused slots. -/
theorem witness_IgnoredBitsChangeNothing_slots :
    ¬IsReserved 0x52414200000000FF ∧
      (0x52414200000000FF : CommandWord) &&& significantMask 0x52414200000000FF =
        0x52414248480000FF &&& significantMask 0x52414200000000FF := by decide

theorem witness_StepRunsTheDecodedCommand :
    ({ start with pending := [0x3000000000000000] } : State).pending = [0x3000000000000000] ∧
      decode 0x3000000000000000 = .ok .commit := by decide +kernel

theorem witness_EveryStepCompletesWithOneResponse :
    start.pending = [] ∧ ({ start with pending := [0] } : State).pending ≠ [] := by decide +kernel

theorem witness_EachCommandRespondsOnce_lookup :
    exec (.lookup 0x37) start = .next ⟨command config (.lookup 0x37) start.toStateOf⟩ := rfl

theorem witness_EachCommandRespondsOnce_others :
    (Instr.fmttext 4 0 0 0 0 0).wellFormed = true ∧ (∀ c, Instr.fmttext 4 0 0 0 0 0 ≠ .lookup c) ∧
      exec (.fmttext 4 0 0 0 0 0) start = .next
          ⟨command config (.fmttext 4 0 0 0 0 0) start.toStateOf⟩ :=
  ⟨rfl, by simp, rfl⟩

theorem witness_EachCommandRespondsOnce_reserved :
    IsReserved 0 ∧ ({ start with pending := [0] } : State).pending = [0] ∧
      step { start with pending := [0] } = .next ⟨start.skip⟩ := ⟨by decide, rfl, rfl⟩

theorem witness_EveryOffsetHasOneSlot :
    (0 < 15 ∧ geomRead config 1 0 = 0) ∧ 14 < 15 ∧ geomRead config 0 0 = 14 := by decide

theorem witness_LookupFollowsTheSpan :
    (0x20 : CharCode).toNat = 0x20 + 0 ∧ (0x7F : CharCode).toNat = 0x20 + 95 ∧
      (0x1F : CharCode).toNat < 0x20 ∧ 0x7F < (0x80 : CharCode).toNat := by decide

theorem witness_LookupCommandOnlyResponds :
    (0x1000000000000037 : CommandWord).extractLsb' 60 4 = 0x1 := by decide

theorem witness_UndefinedGlyphIsVisible :
    (0x0000FF : Color 24) ≠ off ∧ lookup config 0x80 = config.undefPattern ∧
      lookup config 0x6E = config.undefPattern := by decide

/-- The pixels next to the lowest and the highest block. -/
theorem witness_RenderClearsThenLights : OutsideBlock 3 15 ∧ OutsideBlock 0 44 := by decide

theorem witness_RenderCommandDrawsOneDigit :
    (0x200000030EFF0000 : CommandWord).extractLsb' 60 4 = 0x2 ∧ OutsideBlock 3 59 := by decide

theorem witness_RendersOfDifferentPositionsCommute : (0 : Position) ≠ 3 := by decide

theorem witness_DifferentPatternsLightDifferentPixels :
    (0x000001 : Color 24) ≠ off ∧
      renderBuffer config 0 0xFF 0x000001 marked = renderBuffer config 0 0xFF 0x000001 marked :=
  ⟨by decide, rfl⟩

theorem witness_LitPixelCount : (0x000001 : Color 24) ≠ off := by decide

theorem witness_PixelAddressesStayInTheBlock :
    (⟨45, off⟩ : PixelWrite 24) ∈ renderWrites config 0 0xFF 0x000001 ∧
      (⟨59, 0x000001⟩ : PixelWrite 24) ∈ renderWrites config 0 0xFF 0x000001 := by decide +kernel

theorem witness_CommitCommandShowsTheBuffer :
    (0x3FFFFFFFFFFFFFFF : CommandWord).extractLsb' 60 4 = 0x3 := by decide

/-- The shortest and the longest text. -/
theorem witness_FormatTextShowsItsCharacters : 0 ≤ 4 ∧ 4 ≤ 4 := by decide

theorem witness_FormattersCommitOneFrame : (0 : BitVec 3).toNat ≤ 4 ∧ (4 : BitVec 3).toNat ≤ 4 := by
  decide

theorem witness_FmttextShowsUpToFourCharacters :
    (0x54417E801F0000FF : CommandWord).extractLsb' 60 4 = 0x5 ∧
      ((0x54417E801F0000FF : CommandWord).extractLsb' 56 3).toNat ≤ 4 ∧
      (0x55414248480000FF : CommandWord).extractLsb' 60 4 = 0x5 ∧
      4 < ((0x55414248480000FF : CommandWord).extractLsb' 56 3).toNat ∧
      ({ start with pending := [0x55414248480000FF] } : State).pending = [0x55414248480000FF] ∧
      (4 : BitVec 3).toNat ≤ 4 ∧ 4 < (5 : BitVec 3).toNat := by decide +kernel

theorem witness_FmtnumShowsItsOperands :
    (0x4000000000000007 : CommandWord).extractLsb' 60 4 = 0x4 := by decide

/-- The clauses of `CellsOfNumber` and of R97 meet at -1, 0, 9999 and 10000. -/
theorem witness_CellsOfNumber_boundaries :
    (0xFFFF : Count).toInt < 0 ∧ (0x8000 : Count).toInt < 0 ∧ 9999 < (10000 : Count).toInt ∧
      9999 < (0x7FFF : Count).toInt ∧
      (0 : Count).toInt = ((1000 * 0 + 100 * 0 + 10 * 0 + 0 : Nat) : Int) ∧
      (9999 : Count).toInt = ((1000 * 9 + 100 * 9 + 10 * 9 + 9 : Nat) : Int) ∧
      0 ≤ (0 : Count).toInt ∧ (9999 : Count).toInt ≤ 9999 := by decide

/-- The units and the leading clauses of R97 in range, where the thresholds of R92 meet. -/
theorem witness_FlagMattersOnlyInRange :
    (9999 : Count).toInt % 10 = (9 : Nat) ∧ (0 : Count).toInt % 10 = (0 : Nat) ∧
      (10 : Int) ^ 3 ≤ (1000 : Count).toInt ∧ ¬(10 : Int) ^ 3 ≤ (999 : Count).toInt ∧
      (10 : Int) ^ 1 ≤ (10 : Count).toInt ∧ ¬(10 : Int) ^ 1 ≤ (9 : Count).toInt ∧
      (0 : Position) ≠ 3 ∧ (2 : Position) ≠ 3 := by decide

theorem witness_NumeralsSpellTheCount :
    9999 < 10000 ∧ Nat.toDigits 10 9999 = ['9', '9', '9'] ++ ['9'] ∧
      0 < 10000 ∧ Nat.toDigits 10 0 = [] ++ ['0'] := by decide

theorem witness_SetcountStoresThenShows :
    (0x600000000000002A : CommandWord).extractLsb' 60 4 = 0x6 := by decide

theorem witness_SetstateStoresThenShows :
    (0x7000000000010000 : CommandWord).extractLsb' 60 4 = 0x7 := by decide

theorem witness_OnlyUpdatesWriteTheRegisters :
    exec (.fmtnum 5 true) start = .next ⟨command config (.fmtnum 5 true) start.toStateOf⟩ ∧
      (∀ n, Instr.fmtnum 5 true ≠ .setcount n) ∧ ∀ o, Instr.fmtnum 5 true ≠ .setstate o :=
  ⟨rfl, by simp, by simp⟩

theorem witness_UpdatesReplaceWhateverWasShown :
    (∀ o, Instr.fmttext 1 0x41 0 0 0 0x0000FF ≠ .setstate o) ∧
      ∀ m, Instr.fmttext 1 0x41 0 0 0 0x0000FF ≠ .setcount m :=
  ⟨by simp, by simp⟩

theorem witness_NoCommandSetsTheLuminance :
    exec (.setstate true) start = .next ⟨command config (.setstate true) start.toStateOf⟩ := rfl

theorem witness_PixelsNeverLeakIntoAnythingElse :
    AgreeButPixels start.toStateOf
        { start.toStateOf with pix := Vector.replicate 60 0, trace := [] } :=
  ⟨rfl, rfl, rfl, rfl, rfl⟩

theorem witness_SinkStateNeverReachesTheObservation :
    observe start.toStateOf =
        observe { start.toStateOf with led := Vector.replicate 60 0, lum := 0xFF } ∧
      start.pending = ({ start with led := Vector.replicate 60 0, lum := 0xFF } : State).pending :=
  ⟨rfl, rfl⟩

theorem witness_LaterCommandsDoNotChangeEarlierOnes :
    Host.Core.run Sys2Proof.core ({ start with pending := [0] } : State).pending.length
      { start with pending := [0] } = .next ⟨start.skip⟩ := rfl

theorem witness_EveryStepKeepsTheSinkConsistent :
    SinkConsistent { start.toStateOf with pending := [0x3000000000000000] } ∧
      step { start with pending := [0x3000000000000000] } = .next ⟨commitCommand start.toStateOf⟩ :=
  ⟨⟨⟨[], rfl, rfl⟩, by simp [start, lastFrame]⟩, rfl⟩

end Sys2Proof.Tests
end

section
/-! PROOFS. Scope (`00_scope.md`): what a claim can observe does not depend on what the sink holds (R9). -/

namespace Sys2Proof

open Machine Safety

section
variable {width : Nat}

/-- The state with other LEDs and another luminance, the two things only the sink holds (R17, R18). -/
def Machine.StateOf.withSink (led : PixelBuffer width) (lum : Level) (s : StateOf width) :
    StateOf width :=
  { s with led := led, lum := lum }

/-- The LEDs and the luminance are all that the observation and the command port leave out. -/
theorem eq_withSink_of_observe_eq {s t : StateOf width} (hobs : observe s = observe t)
    (hport : s.pending = t.pending) : t = s.withSink t.led t.lum := by
  cases s
  cases t
  simp_all [observe, StateOf.withSink]

theorem observe_skip_withSink (led : PixelBuffer width) (lum : Level) (s : StateOf width) :
    observe (s.withSink led lum).skip = observe s.skip := rfl

end

theorem observe_command_withSink (cfg : Config 24) (i : Instr) (led : PixelBuffer 24) (lum : Level)
    (s : StateOf 24) :
    observe (command cfg i (s.withSink led lum)) = observe (command cfg i s) := by
  cases i with
  | fmttext len c0 c1 c2 c3 col =>
    simp only [command, fmttextCommand]
    split <;> rfl
  | _ => rfl

theorem command_pending (cfg : Config 24) (i : Instr) (s : StateOf 24) :
    (command cfg i s).pending = s.pending := by
  obtain ⟨_, _, h⟩ | ⟨_, _, _, _, h⟩ := command_cases cfg i s <;> rw [h]

/-- Settles O41: the second state is the first with another sink, and neither a command nor the skip of
a reserved word reads the sink. -/
theorem sinkStateNeverReachesTheObservation : Obligations.SinkStateNeverReachesTheObservation := by
  intro s t hobs hport
  cases hs : s.pending with
  | nil => exact ⟨s, t, step_of_idle s hs, step_of_idle t (hport ▸ hs), hobs, hport⟩
  | cons w rest =>
    have htaken : { t.toStateOf with pending := rest } =
        StateOf.withSink t.led t.lum { s.toStateOf with pending := rest } :=
      congrArg (fun u => { u with pending := rest }) (eq_withSink_of_observe_eq hobs hport)
    rw [step_of_pending s w rest hs, step_of_pending t w rest (hport ▸ hs), htaken]
    cases decode w with
    | ok i =>
      refine ⟨_, _, exec_eq_command i _, exec_eq_command i _, ?_, ?_⟩
      · exact (observe_command_withSink config i t.led t.lum _).symm
      · simp only [command_pending, StateOf.withSink]
    | error r => exact ⟨_, _, rfl, rfl, (observe_skip_withSink t.led t.lum _).symm, rfl⟩

end Sys2Proof
end

section
/-! PROOFS. The configuration: the model's constraints are the spec's (`00_scope.md` R5, `41_render.md`
R80), and in every configuration the slots of the geometry ROM enumerate the offsets of a block. -/

namespace Sys2Proof

open Machine Safety

section
variable {width : Nat}

/-- The content of slot `s.2` of bit `s.1` of the geometry ROM (R80). -/
def Params.slot (p : Params width) (s : Fin 8 × Fin 2) : GeomEntry := p.geom[s.1][s.2]

/-- The slots that hold a pixel, in the order of `Params.realOffsets`. -/
def realSlots : List (Fin 8 × Fin 2) :=
  [(0, 0), (1, 0), (2, 0), (3, 0), (4, 0), (5, 0), (6, 0), (7, 0),
   (1, 1), (2, 1), (3, 1), (4, 1), (5, 1), (6, 1), (7, 1)]

/-- Every slot holds a pixel but the second one of the decimal point. -/
@[simp] theorem mem_realSlots (s : Fin 8 × Fin 2) : s ∈ realSlots ↔ s ≠ (0, 1) := by
  revert s
  decide

theorem realSlots_nodup : realSlots.Nodup := by decide

theorem realOffsets_eq_map (p : Params width) : p.realOffsets = realSlots.map p.slot := rfl

theorem geomLegal_iff (p : Params width) :
    p.GeomLegal ↔ p.slot (0, 1) = noPixel ∧ (∀ s, s ≠ (0, 1) → (p.slot s).toNat < 15) ∧
      ∀ s, s ≠ (0, 1) → ∀ s', s' ≠ (0, 1) → p.slot s = p.slot s' → s = s' := by
  simp only [Params.GeomLegal, realOffsets_eq_map, List.all_map, List.all_eq_true,
    List.nodup_map_iff_inj_on realSlots_nodup, mem_realSlots, Function.comp_apply,
    decide_eq_true_eq]
  rfl

/-- In a legal geometry a slot that holds an offset of the block is not the decimal point's second. -/
theorem ne_of_slot_toNat_lt {p : Params width} (hnone : p.slot (0, 1) = noPixel)
    {s : Fin 8 × Fin 2} (hs : (p.slot s).toNat < 15) : s ≠ (0, 1) := by
  rintro rfl
  rw [hnone] at hs
  exact absurd hs (by decide)

/-- In a legal geometry no offset of the block stands in two slots (R80 constraint 4). -/
theorem slot_inj_of_geomLegal {p : Params width} (hp : p.GeomLegal) {s s' : Fin 8 × Fin 2}
    (hs : (p.slot s).toNat < 15) (heq : p.slot s = p.slot s') : s = s' := by
  obtain ⟨hnone, -, hinj⟩ := (geomLegal_iff p).mp hp
  exact hinj s (ne_of_slot_toNat_lt hnone hs) s' (ne_of_slot_toNat_lt hnone (heq ▸ hs)) heq

theorem specLegal_of_legal {p : Params width} (hp : p.Legal) : SpecLegal p := by
  obtain ⟨hundef, hgeom, hcolors⟩ := hp
  obtain ⟨hnone, hreal, -⟩ := (geomLegal_iff p).mp hgeom
  have hsecond (b : Fin 8) (hb : b ≠ 0) : (p.slot (b, 1)).toNat ≤ 14 :=
    Nat.le_of_lt_succ (hreal (b, 1) (by simp [hb]))
  refine ⟨hundef, hcolors, fun b => Nat.le_of_lt_succ (hreal (b, 0) (by simp)), fun b => ?_, hnone,
    hsecond, fun b b' k k' hle heq => ?_⟩
  · by_cases hb : b = 0
    · exact .inr (hb ▸ hnone)
    · exact .inl (hsecond b hb)
  · exact Prod.mk.inj (slot_inj_of_geomLegal hgeom (s := (b, k)) (s' := (b', k'))
      (Nat.lt_succ_of_le hle) heq)

theorem legal_of_specLegal {p : Params width} (hp : SpecLegal p) : p.Legal := by
  obtain ⟨hundef, hcolors, hfirst, -, hnone, hsecond, hinj⟩ := hp
  have hreal (s : Fin 8 × Fin 2) (hs : s ≠ (0, 1)) : (p.slot s).toNat ≤ 14 := by
    obtain ⟨b, k⟩ := s
    match k with
    | 0 => exact hfirst b
    | 1 => exact hsecond b fun hb => hs (by rw [hb])
  refine ⟨hundef, (geomLegal_iff p).mpr ⟨hnone, fun s hs => Nat.lt_succ_of_le (hreal s hs), ?_⟩,
    hcolors⟩
  intro s hs s' _ heq
  exact Prod.ext_iff.mpr (hinj s.1 s'.1 s.2 s'.2 (hreal s hs) heq)

/-- What `Config.ofParams` accepts, and it keeps the parameters as they are. -/
theorem ofParams_accepts_iff_legal (p : Params width) :
    (∃ cfg, Config.ofParams p = .ok cfg ∧ cfg.toParams = p) ↔ p.Legal := by
  constructor
  · rintro ⟨cfg, -, rfl⟩
    exact cfg.legal
  · rintro ⟨hundef, hgeom, hcolors⟩
    refine ⟨⟨p, hundef, hgeom, hcolors⟩, ?_, rfl⟩
    rw [Config.ofParams, dif_pos hundef, dif_pos hgeom, dif_pos hcolors]

/-- Pigeonhole: fifteen distinct offsets below 15 are all of them. -/
theorem exists_slot_of_lt {p : Params width} (hp : p.GeomLegal) {o : Nat} (ho : o < 15) :
    ∃ s, (p.slot s).toNat = o := by
  obtain ⟨-, hreal, hnodup⟩ := hp
  have hsub : p.realOffsets.map BitVec.toNat ⊆ List.range 15 := by
    intro n hn
    obtain ⟨e, he, rfl⟩ := List.mem_map.mp hn
    exact List.mem_range.mpr (of_decide_eq_true (List.all_eq_true.mp hreal e he))
  have hperm : (p.realOffsets.map BitVec.toNat).Perm (List.range 15) :=
    ((hnodup.map BitVec.toNat_injective).subperm hsub).perm_of_length_le
      (by simp [Params.realOffsets])
  have hmem := hperm.mem_iff.mpr (List.mem_range.mpr ho)
  rw [realOffsets_eq_map, List.map_map] at hmem
  obtain ⟨s, -, hs⟩ := List.mem_map.mp hmem
  exact ⟨s, hs⟩

end

/-- Settles O10: `Config.ofParams` accepts the legal parameters, and `Params.Legal` says of the list of
real offsets what the spec says of the slots. -/
theorem illFormedConfigurationsAreRefused : Obligations.IllFormedConfigurationsAreRefused := by
  intro width p
  exact (ofParams_accepts_iff_legal p).trans ⟨specLegal_of_legal, legal_of_specLegal⟩

/-- Settles O11: some slot holds the offset by the pigeonhole principle, and no other does by
constraint 4 of R80. -/
theorem everyOffsetHasOneSlot : Obligations.EveryOffsetHasOneSlot := by
  intro width cfg o ho
  obtain ⟨-, hgeom, -⟩ := cfg.legal
  obtain ⟨slot, hslot⟩ := exists_slot_of_lt hgeom ho
  refine ⟨slot, hslot, fun other hother => ?_⟩
  exact slot_inj_of_geomLegal hgeom (s := other) (s' := slot) (hother.trans_lt ho)
    (BitVec.eq_of_toNat_eq (hother.trans hslot.symm))

end Sys2Proof
end

section
/-! PROOFS. The state and the sink (`10_state.md`): what a command leaves in the registers and answers
to the host does not depend on the pixels (R10, R11, R16), and all it can do to the sink is to commit one
frame (R17 to R19). -/

namespace Sys2Proof

open Machine Safety

/-! ### What a command leaves in the registers and answers -/

/-- `COUNT` after the command, from the one before it (R10). -/
def Instr.countAfter : Instr → Count → Count
  | .setcount n, _ => n
  | _, n => n

/-- `ISOPEN` after the command, from the one before it (R11). -/
def Instr.isOpenAfter : Instr → Bool → Bool
  | .setstate isOpen, _ => isOpen
  | _, isOpen => isOpen

/-- The one response of the command (R58). -/
def Instr.response (cfg : Config 24) : Instr → Response
  | .lookup c => ⟨.done, Machine.lookup cfg c⟩
  | i => ⟨if i.wellFormed then .done else .skipped, 0x00⟩

theorem countAfter_of_not_setcount {i : Instr} (h : ∀ n, i ≠ .setcount n) (n : Count) :
    i.countAfter n = n := by
  cases i with
  | setcount m => exact absurd rfl (h m)
  | _ => rfl

theorem isOpenAfter_of_not_setstate {i : Instr} (h : ∀ o, i ≠ .setstate o) (isOpen : Bool) :
    i.isOpenAfter isOpen = isOpen := by
  cases i with
  | setstate o => exact absurd rfl (h o)
  | _ => rfl

section
variable (cfg : Config 24) (i : Instr) (s : StateOf 24)

theorem command_count : (command cfg i s).count = i.countAfter s.count := by
  cases i with
  | fmttext len c0 c1 c2 c3 col =>
    simp only [command, fmttextCommand]
    split <;> rfl
  | _ => rfl

theorem command_isOpen : (command cfg i s).isOpen = i.isOpenAfter s.isOpen := by
  cases i with
  | fmttext len c0 c1 c2 c3 col =>
    simp only [command, fmttextCommand]
    split <;> rfl
  | _ => rfl

theorem command_responses :
    (command cfg i s).responses = s.responses ++ [i.response cfg] := by
  cases i with
  | fmttext len c0 c1 c2 c3 col =>
    by_cases hlen : len.toNat ≤ 4
    · simp [command, fmttextCommand, formatText, Instr.response, Instr.wellFormed, hlen,
        Nat.not_lt.mpr hlen]
    · simp [command, fmttextCommand, Instr.response, Instr.wellFormed, hlen, Nat.lt_of_not_le hlen]
  | _ => rfl

theorem command_lum : (command cfg i s).lum = s.lum := by
  obtain ⟨_, _, h⟩ | ⟨_, _, _, _, h⟩ := command_cases cfg i s <;> rw [h]

end

/-- Settles O36: the registers a command leaves, `Instr.countAfter` and `Instr.isOpenAfter`, are the ones
it finds but for the two updates. -/
theorem onlyUpdatesWriteTheRegisters : Obligations.OnlyUpdatesWriteTheRegisters := by
  intro i s t h
  rw [(exec_next_iff i s t).mp h, command_count, command_isOpen]
  exact ⟨fun hi => countAfter_of_not_setcount hi _, fun hi => isOpenAfter_of_not_setstate hi _⟩

/-! ### The pixels reach nothing else -/

theorem agreeButPixels_command {s t : StateOf 24} (h : AgreeButPixels s t) (cfg : Config 24)
    (i : Instr) : AgreeButPixels (command cfg i s) (command cfg i t) := by
  obtain ⟨hcount, hopen, hlum, hresponses, hport⟩ := h
  simp only [AgreeButPixels, command_count, command_isOpen, command_lum, command_responses,
    command_pending, hcount, hopen, hlum, hresponses, hport, and_self]

theorem agreeButPixels_skip {width : Nat} {s t : StateOf width} (h : AgreeButPixels s t) :
    AgreeButPixels s.skip t.skip := by
  obtain ⟨hcount, hopen, hlum, hresponses, hport⟩ := h
  exact ⟨hcount, hopen, hlum, congrArg (· ++ _) hresponses, hport⟩

/-- Taking the next word off both ports keeps the agreement. -/
theorem agreeButPixels_take {width : Nat} {s t : StateOf width} (h : AgreeButPixels s t)
    (rest : List CommandWord) :
    AgreeButPixels { s with pending := rest } { t with pending := rest } := by
  obtain ⟨hcount, hopen, hlum, hresponses, -⟩ := h
  exact ⟨hcount, hopen, hlum, hresponses, rfl⟩

/-- Settles O40: both steps take the same word, and neither a command nor the skip of a reserved word
breaks the agreement. -/
theorem pixelsNeverLeakIntoAnythingElse : Obligations.PixelsNeverLeakIntoAnythingElse := by
  intro s t h
  have ⟨_, _, _, _, hport⟩ := h
  cases hs : s.pending with
  | nil => exact ⟨s, t, step_of_idle s hs, step_of_idle t (hport ▸ hs), h⟩
  | cons w rest =>
    rw [step_of_pending s w rest hs, step_of_pending t w rest (hport ▸ hs)]
    have htaken := agreeButPixels_take h rest
    cases decode w with
    | ok i =>
      exact ⟨_, _, exec_eq_command i _, exec_eq_command i _,
        agreeButPixels_command htaken config i⟩
    | error r => exact ⟨_, _, rfl, rfl, agreeButPixels_skip htaken⟩

/-! ### What a command or a step can do to the sink -/

section
variable {width : Nat}

/-- From `s` to `t` the sink was left alone or shown one frame, and the luminance was not set. -/
def CommitsAtMostOnce (s t : StateOf width) : Prop :=
  t.lum = s.lum ∧
    ((t.led = s.led ∧ t.trace = s.trace) ∨ t.trace = s.trace ++ [.commit t.led])

@[simp] theorem noLum_append (before after : List (SinkEvent width)) :
    noLum (before ++ after) = (noLum before && noLum after) := by
  induction before with
  | nil => rfl
  | cons e before ih =>
    cases e with
    | lum level => rfl
    | commit frame => exact ih

@[simp] theorem lastFrame_append_commit (events : List (SinkEvent width))
    (frame : PixelBuffer width) : lastFrame (events ++ [.commit frame]) = some frame := by
  induction events with
  | nil => rfl
  | cons e events ih => cases e <;> simp [lastFrame, ih]

theorem CommitsAtMostOnce.trace_grows {s t : StateOf width} (h : CommitsAtMostOnce s t) :
    ∃ events, t.trace = s.trace ++ events ∧ noLum events = true := by
  obtain ⟨-, ⟨-, htrace⟩ | htrace⟩ := h
  · exact ⟨[], by simp [htrace], rfl⟩
  · exact ⟨_, htrace, rfl⟩

theorem CommitsAtMostOnce.sinkConsistent {s t : StateOf width} (h : CommitsAtMostOnce s t)
    (hs : SinkConsistent s) : SinkConsistent t := by
  obtain ⟨hlum, hsink⟩ := h
  obtain ⟨⟨events, hfirst, hrest⟩, hled⟩ := hs
  obtain ⟨hkept, htrace⟩ | htrace := hsink
  · exact ⟨⟨events, by rw [htrace, hfirst, hlum], hrest⟩, by rwa [htrace, hkept]⟩
  · refine ⟨⟨events ++ [.commit t.led], by rw [htrace, hfirst, hlum, List.cons_append], ?_⟩, ?_⟩
    · rw [noLum_append, hrest]
      rfl
    · intro f hf
      rw [htrace, lastFrame_append_commit] at hf
      exact Option.some.inj hf

end

theorem command_commitsAtMostOnce (cfg : Config 24) (i : Instr) (s : StateOf 24) :
    CommitsAtMostOnce s (command cfg i s) := by
  obtain ⟨_, _, h⟩ | ⟨_, _, _, _, h⟩ := command_cases cfg i s <;> rw [h]
  · exact ⟨rfl, .inl ⟨rfl, rfl⟩⟩
  · exact ⟨rfl, .inr rfl⟩

theorem step_commitsAtMostOnce {s t : State} (h : step s = .next t) :
    CommitsAtMostOnce s.toStateOf t.toStateOf := by
  obtain ⟨-, rfl⟩ | ⟨w, rest, i, -, -, ht⟩ | ⟨w, rest, r, -, -, ht⟩ := step_cases s t h
  · exact ⟨rfl, .inl ⟨rfl, rfl⟩⟩
  · rw [ht]
    exact command_commitsAtMostOnce config i { s.toStateOf with pending := rest }
  · rw [ht]
    exact ⟨rfl, .inl ⟨rfl, rfl⟩⟩

/-- Settles O38: all a command can do to the sink is to commit one frame. -/
theorem noCommandSetsTheLuminance : Obligations.NoCommandSetsTheLuminance := by
  intro i s t h
  rw [(exec_next_iff i s t).mp h]
  exact ⟨command_lum config i _, (command_commitsAtMostOnce config i _).trace_grows⟩

/-- Settles O42: a step commits at most one frame, which the LEDs then show, and sets no luminance. -/
theorem everyStepKeepsTheSinkConsistent : Obligations.EveryStepKeepsTheSinkConsistent :=
  fun _ _ hs h => (step_commitsAtMostOnce h).sinkConsistent hs

/-- Settles O43: after reset the one `Lum` event is the whole trace, so the LEDs owe it no frame. -/
theorem resetSinkIsConsistent : Obligations.ResetSinkIsConsistent := by
  have hnone : lastFrame State.reset.trace = none := rfl
  exact ⟨rfl, hnone, ⟨[], rfl, rfl⟩, by simp [hnone]⟩

end Sys2Proof
end

section
/-! PROOFS. The memory (`20_memory.md`): where a render writes (R35, R36), and in what order the effects of
commands stand: each runs whole and reaches the sink by its one commit (R39, R40). -/

namespace Sys2Proof

open Machine Safety

/-! ### The pixels a render addresses -/

section
variable {width : Nat}

theorem not_outsideBlock_pixelAddress (p : Position) {o : Nat} (ho : o < 15) :
    ¬OutsideBlock p (pixelAddress p o) := by
  simp only [OutsideBlock, pixelAddress, blockBase]
  omega

theorem pixelAddress_lt (p : Position) {o : Nat} (ho : o < 15) : pixelAddress p o < 60 := by
  simp only [pixelAddress, blockBase]
  omega

theorem lt_of_mem_litOffsets {cfg : Config width} {pat : Pattern} {o : Nat}
    (ho : o ∈ litOffsets cfg pat) : o < 15 := by
  obtain ⟨b, k, -, hreal, rfl⟩ := (mem_litOffsets cfg pat o).mp ho
  exact (geomRead_legal cfg b k).resolve_left hreal

theorem exists_offset_of_mem_renderWrites {cfg : Config width} {p : Position} {pat : Pattern}
    {col : Color width} {w : PixelWrite width} (hw : w ∈ renderWrites cfg p pat col) :
    ∃ o < 15, w.index = pixelAddress p o := by
  rcases List.mem_append.mp hw with hclear | hlight
  · obtain ⟨o, ho, rfl⟩ := List.mem_map.mp hclear
    exact ⟨o, List.mem_range.mp ho, rfl⟩
  · obtain ⟨o, ho, rfl⟩ := List.mem_map.mp hlight
    exact ⟨o, lt_of_mem_litOffsets ho, rfl⟩

/-- The positions run from the top of the strip down, fifteen pixels each (R35). -/
theorem not_outsideBlock_iff {p : Position} {i : Nat} (hi : i < 60) :
    ¬OutsideBlock p i ↔ p.val = 3 - i / 15 := by
  simp only [OutsideBlock]
  omega

end

/-- Settles O21: every call writes at an offset below 15, and pixel `i` lies in the block of position
`3 - i / 15` only. -/
theorem pixelAddressesStayInTheBlock : Obligations.PixelAddressesStayInTheBlock := by
  refine ⟨fun width cfg p pat col w hw => ?_, fun i hi => ?_⟩
  · obtain ⟨o, ho, hindex⟩ := exists_offset_of_mem_renderWrites hw
    rw [hindex]
    exact ⟨pixelAddress_lt p ho, not_outsideBlock_pixelAddress p ho⟩
  · refine ⟨⟨3 - i / 15, by omega⟩, (not_outsideBlock_iff hi).mpr rfl, fun q hq => ?_⟩
    exact Fin.ext ((not_outsideBlock_iff hi).mp hq)

/-! ### Which commands commit -/

section
variable {width : Nat}

theorem fmttextCommand_of_le (cfg : Config width) {len : BitVec 3} (h : len.toNat ≤ 4)
    (c0 c1 c2 c3 : CharCode) (col : Color width) (s : StateOf width) :
    fmttextCommand cfg len c0 c1 c2 c3 col s =
      (formatText cfg len.toNat c0 c1 c2 c3 col s).finish :=
  if_neg (Nat.not_lt.mpr h)

theorem fmttextCommand_of_lt (cfg : Config width) {len : BitVec 3} (h : 4 < len.toNat)
    (c0 c1 c2 c3 : CharCode) (col : Color width) (s : StateOf width) :
    fmttextCommand cfg len c0 c1 c2 c3 col s = s.skip :=
  if_pos h

end

section
variable (cfg : Config 24) {i : Instr} (s : StateOf 24)

theorem command_commits_pix (h : commits i = true) :
    (command cfg i s).trace = s.trace ++ [.commit (command cfg i s).pix] ∧
      (command cfg i s).led = (command cfg i s).pix := by
  cases i with
  | lookup c => exact absurd h Bool.false_ne_true
  | render pos pat col => exact absurd h Bool.false_ne_true
  | fmttext len c0 c1 c2 c3 col =>
    rw [command, fmttextCommand_of_le cfg (of_decide_eq_true h)]
    exact ⟨rfl, rfl⟩
  | _ => exact ⟨rfl, rfl⟩

theorem command_keeps_sink (h : commits i ≠ true) :
    (command cfg i s).trace = s.trace ∧ (command cfg i s).led = s.led := by
  cases i with
  | lookup c => exact ⟨rfl, rfl⟩
  | render pos pat col => exact ⟨rfl, rfl⟩
  | fmttext len c0 c1 c2 c3 col =>
    have hlong : ¬len.toNat ≤ 4 := fun hle => h (decide_eq_true hle)
    rw [command, fmttextCommand_of_lt cfg (Nat.lt_of_not_le hlong)]
    exact ⟨rfl, rfl⟩
  | _ => exact absurd rfl h

end

/-- Settles O39: the committing commands are COMMIT and those that show four cells. -/
theorem onlyCommitsReachTheSink : Obligations.OnlyCommitsReachTheSink := by
  intro cfg i s
  split
  · exact command_commits_pix cfg s ‹_›
  · exact command_keeps_sink cfg s ‹_›

/-! ### What a step does with the words that wait behind the one it takes -/

/-- What the block does with a word it has taken off the port: the command it encodes, or the skip of a
reserved word (R52, R54). -/
def afterWord (w : CommandWord) (s : StateOf 24) : StateOf 24 :=
  match decode w with
  | .ok i => command config i s
  | .error _ => s.skip

theorem step_eq_afterWord (s : State) {w : CommandWord} {rest : List CommandWord}
    (h : s.pending = w :: rest) :
    step s = .next ⟨afterWord w { s.toStateOf with pending := rest }⟩ := by
  rw [step_of_pending s w rest h, afterWord]
  cases decode w with
  | ok i => exact exec_eq_command i _
  | error r => rfl

theorem afterWord_pending (w : CommandWord) (s : StateOf 24) :
    (afterWord w s).pending = s.pending := by
  rw [afterWord]
  cases decode w with
  | ok i => exact command_pending config i s
  | error r => rfl

theorem command_present (cfg : Config 24) (i : Instr) (s : StateOf 24) (later : List CommandWord) :
    command cfg i (s.present later) = (command cfg i s).present later := by
  cases i with
  | fmttext len c0 c1 c2 c3 col =>
    simp only [command, fmttextCommand]
    split <;> rfl
  | _ => rfl

theorem afterWord_present (w : CommandWord) (s : StateOf 24) (later : List CommandWord) :
    afterWord w (s.present later) = (afterWord w s).present later := by
  simp only [afterWord]
  cases decode w with
  | ok i => exact command_present config i s later
  | error r => rfl

/-- Presenting more words behind a waiting one commutes with the step that takes it. -/
theorem step_present_eq_afterWord (s : State) {w : CommandWord} {rest : List CommandWord}
    (h : s.pending = w :: rest) (later : List CommandWord) :
    step ⟨s.present later⟩ =
      .next ⟨(afterWord w { s.toStateOf with pending := rest }).present later⟩ := by
  have hpresented : (s.present later).pending = w :: (rest ++ later) := by
    rw [StateOf.present_pending, h, List.cons_append]
  rw [step_eq_afterWord ⟨s.present later⟩ hpresented, ← afterWord_present]
  rfl

theorem run_present (waiting : List CommandWord) (s t : State) (hs : s.pending = waiting)
    (later : List CommandWord) (h : Host.Core.run Sys2Proof.core waiting.length s = .next t) :
    Host.Core.run Sys2Proof.core waiting.length ⟨s.present later⟩ = .next ⟨t.present later⟩ := by
  induction waiting generalizing s with
  | nil =>
    obtain rfl : s = t := Host.Outcome.next.inj h
    rfl
  | cons w rest ih =>
    rw [List.length_cons, run_succ _ _ _ (step_eq_afterWord s hs)] at h
    rw [List.length_cons, run_succ _ _ _ (step_present_eq_afterWord s hs later)]
    exact ih _ (afterWord_pending w _) h

/-- Settles O45: presenting the words before a step is presenting them after it, along the whole run. -/
theorem laterCommandsDoNotChangeEarlierOnes : Obligations.LaterCommandsDoNotChangeEarlierOnes :=
  fun s t later h => run_present s.pending s t rfl later h

end Sys2Proof
end

section
/-! PROOFS. The command word (`30_encoding.md`): encoder and decoder undo each other on the bits a format
lists (R51 to R53), the decoder refuses exactly the reserved encodings (R54), the bits it does not look
at change no step (R55), and each command gives one response (R58). -/

namespace Sys2Proof

open Machine Safety

/-! ### Decoding an encoded command -/

theorem decodeLookup_encode (c : CharCode) : decodeLookup (encode (.lookup c)) = .lookup c := by
  simp only [decodeLookup, encode, BitVec.extractLsb'_append_eq_right]

theorem decodeRender_encode (pos : Position) (pat : Pattern) (col : Color 24) :
    decodeRender (encode (.render pos pat col)) = .render pos pat col := by
  simp only [decodeRender, encode, BitVec.extractLsb'_append_eq_of_le,
    BitVec.extractLsb'_append_eq_right, Nat.reduceLeDiff, Nat.reduceSub]

theorem decodeFmtnum_encode (count : Count) (isOpen : Bool) :
    decodeFmtnum (encode (.fmtnum count isOpen)) = .fmtnum count isOpen := by
  simp only [decodeFmtnum, encode, BitVec.extractLsb'_append_eq_right, BitVec.getLsbD_append]
  simp

theorem decodeFmttext_encode (len : BitVec 3) (c0 c1 c2 c3 : CharCode) (col : Color 24) :
    decodeFmttext (encode (.fmttext len c0 c1 c2 c3 col)) = .fmttext len c0 c1 c2 c3 col := by
  simp only [decodeFmttext, encode, BitVec.extractLsb'_append_eq_of_le,
    BitVec.extractLsb'_append_eq_right, Nat.reduceLeDiff, Nat.reduceSub]

theorem decodeSetcount_encode (count : Count) :
    decodeSetcount (encode (.setcount count)) = .setcount count := by
  simp only [decodeSetcount, encode, BitVec.extractLsb'_append_eq_right]

theorem decodeSetstate_encode (isOpen : Bool) :
    decodeSetstate (encode (.setstate isOpen)) = .setstate isOpen := by
  simp only [decodeSetstate, encode, BitVec.getLsbD_append]
  simp

/-- Settles O1: the encoded command has its opcode, and the decoder of that opcode reads every field
back. -/
theorem decodeOfEncodeIsTheCommand : Obligations.DecodeOfEncodeIsTheCommand := by
  intro i hwf
  cases i with
  | lookup c =>
    rw [decode_of_opcode1 _ (Laws.EncodedOpcode.lookup c), decodeLookup_encode]
  | render pos pat col =>
    rw [decode_of_opcode2 _ (Laws.EncodedOpcode.render pos pat col), decodeRender_encode]
  | commit => exact decode_of_opcode3 _ Laws.EncodedOpcode.commit
  | fmtnum count isOpen =>
    rw [decode_of_opcode4 _ (Laws.EncodedOpcode.fmtnum count isOpen), decodeFmtnum_encode]
  | fmttext len c0 c1 c2 c3 col =>
    have hfields := decodeFmttext_encode len c0 c1 c2 c3 col
    have hlen : (encode (.fmttext len c0 c1 c2 c3 col)).extractLsb' 56 3 = len :=
      (Instr.fmttext.inj hfields).1
    rw [decode_of_opcode5 _ (Laws.EncodedOpcode.fmttext len c0 c1 c2 c3 col), hlen, hfields,
      if_pos (of_decide_eq_true hwf)]
  | setcount count =>
    rw [decode_of_opcode6 _ (Laws.EncodedOpcode.setcount count), decodeSetcount_encode]
  | setstate isOpen =>
    rw [decode_of_opcode7 _ (Laws.EncodedOpcode.setstate isOpen), decodeSetstate_encode]

/-! ### Encoding a decoded word -/

/-- `x` is the stretch of the word from bit `start` on with the bits outside the mask zero. -/
def IsMasked (w : CommandWord) (start : Nat) {n : Nat} (mask x : BitVec n) : Prop :=
  x = w.extractLsb' start n &&& mask

section
variable {w : CommandWord} {start m : Nat} {mask x : BitVec m}

theorem isMasked_opcodeField (w : CommandWord) : IsMasked w 60 (BitVec.allOnes 4) (opcodeField w) :=
  BitVec.and_allOnes.symm

theorem IsMasked.append {n : Nat} {lowMask low : BitVec n} (h : IsMasked w (start + n) mask x)
    (hlow : IsMasked w start lowMask low) : IsMasked w start (mask ++ lowMask) (x ++ low) := by
  rw [IsMasked] at *
  rw [h, hlow, ← BitVec.and_append, BitVec.extractLsb'_append_extractLsb'_eq_extractLsb' rfl]

/-- The next `n` bits are a field the format lists. -/
theorem IsMasked.listed (n : Nat) (h : IsMasked w (start + n) mask x) :
    IsMasked w start (mask ++ BitVec.allOnes n) (x ++ w.extractLsb' start n) :=
  h.append BitVec.and_allOnes.symm

/-- The next `n` bits are reserved. -/
theorem IsMasked.reserved (n : Nat) (h : IsMasked w (start + n) mask x) :
    IsMasked w start (mask ++ 0#n) (x ++ 0#n) :=
  h.append BitVec.and_zero.symm

theorem IsMasked.word {mask x : CommandWord} (h : IsMasked w 0 mask x) : x = w &&& mask := by
  rw [h, BitVec.extractLsb'_eq_self]

end

theorem ofBool_getLsbD (w : CommandWord) (k : Nat) :
    BitVec.ofBool (w.getLsbD k) = w.extractLsb' k 1 := by
  rw [BitVec.getLsbD_eq_extractLsb']
  generalize w.extractLsb' k 1 = b
  revert b
  decide

section
variable {w : CommandWord}

theorem encode_decodeLookup (h : opcodeField w = 0x1#4) :
    encode (decodeLookup w) = w &&& (decodeLookup w).formatMask := by
  rw [decodeLookup, encode, ← h]
  exact (isMasked_opcodeField w).reserved 52 |>.listed 8 |>.word

theorem encode_decodeRender (h : opcodeField w = 0x2#4) :
    encode (decodeRender w) = w &&& (decodeRender w).formatMask := by
  rw [decodeRender, encode, ← h]
  exact (isMasked_opcodeField w).reserved 26 |>.listed 2 |>.listed 8 |>.listed 24 |>.word

theorem encode_commit (h : opcodeField w = 0x3#4) :
    encode .commit = w &&& Instr.commit.formatMask := by
  rw [encode, ← h]
  exact (isMasked_opcodeField w).reserved 60 |>.word

theorem encode_decodeFmtnum (h : opcodeField w = 0x4#4) :
    encode (decodeFmtnum w) = w &&& (decodeFmtnum w).formatMask := by
  rw [decodeFmtnum, encode, ← h, ofBool_getLsbD]
  exact (isMasked_opcodeField w).reserved 43 |>.listed 1 |>.listed 16 |>.word

theorem encode_decodeFmttext (h : opcodeField w = 0x5#4) :
    encode (decodeFmttext w) = w &&& (decodeFmttext w).formatMask := by
  rw [decodeFmttext, encode, ← h]
  exact (isMasked_opcodeField w).reserved 1 |>.listed 3 |>.listed 8 |>.listed 8 |>.listed 8
    |>.listed 8 |>.listed 24 |>.word

theorem encode_decodeSetcount (h : opcodeField w = 0x6#4) :
    encode (decodeSetcount w) = w &&& (decodeSetcount w).formatMask := by
  rw [decodeSetcount, encode, ← h]
  exact (isMasked_opcodeField w).reserved 44 |>.listed 16 |>.word

theorem encode_decodeSetstate (h : opcodeField w = 0x7#4) :
    encode (decodeSetstate w) = w &&& (decodeSetstate w).formatMask := by
  rw [decodeSetstate, encode, ← h, ofBool_getLsbD]
  exact (isMasked_opcodeField w).reserved 43 |>.listed 1 |>.reserved 16 |>.word

end

/-! ### What the decoder accepts, and what it refuses -/

/-- The word encodes the command: the opcode map of R52, a text of length at most 4 (R54). -/
inductive Decodes (w : CommandWord) : Instr → Prop where
  | lookup (hop : opcodeField w = 0x1) : Decodes w (decodeLookup w)
  | render (hop : opcodeField w = 0x2) : Decodes w (decodeRender w)
  | commit (hop : opcodeField w = 0x3) : Decodes w .commit
  | fmtnum (hop : opcodeField w = 0x4) : Decodes w (decodeFmtnum w)
  | fmttext (hop : opcodeField w = 0x5) (hlen : (w.extractLsb' 56 3).toNat ≤ 4) :
      Decodes w (decodeFmttext w)
  | setcount (hop : opcodeField w = 0x6) : Decodes w (decodeSetcount w)
  | setstate (hop : opcodeField w = 0x7) : Decodes w (decodeSetstate w)

section
variable {w : CommandWord} {i : Instr}

theorem Decodes.decode_eq (h : Decodes w i) : decode w = .ok i := by
  cases h with
  | lookup hop => exact decode_of_opcode1 w hop
  | render hop => exact decode_of_opcode2 w hop
  | commit hop => exact decode_of_opcode3 w hop
  | fmtnum hop => exact decode_of_opcode4 w hop
  | fmttext hop hlen => rw [decode_of_opcode5 w hop, if_pos hlen]
  | setcount hop => exact decode_of_opcode6 w hop
  | setstate hop => exact decode_of_opcode7 w hop

theorem decode_error_of_isReserved (h : IsReserved w) : ∃ r, decode w = .error r := by
  obtain hop | hop | ⟨hop, hlen⟩ := h
  · exact ⟨_, decode_of_otherOpcode w (.inl hop)⟩
  · exact ⟨_, decode_of_otherOpcode w (.inr hop)⟩
  · exact ⟨_, (decode_of_opcode5 w hop).trans (if_neg (Nat.not_le.mpr hlen))⟩

theorem isReserved_or_decodes (w : CommandWord) : IsReserved w ∨ ∃ i, Decodes w i := by
  obtain hop | hop | hop | hop | hop | hop | hop | hop | hop := opcode_cases (opcodeField w)
  · exact .inr ⟨_, .lookup hop⟩
  · exact .inr ⟨_, .render hop⟩
  · exact .inr ⟨_, .commit hop⟩
  · exact .inr ⟨_, .fmtnum hop⟩
  · obtain hlen | hlen := Nat.lt_or_ge 4 (w.extractLsb' 56 3).toNat
    · exact .inl (.inr (.inr ⟨hop, hlen⟩))
    · exact .inr ⟨_, .fmttext hop hlen⟩
  · exact .inr ⟨_, .setcount hop⟩
  · exact .inr ⟨_, .setstate hop⟩
  · exact .inl (.inl hop)
  · exact .inl (.inr (.inl hop))

theorem decodes_of_decode_ok (h : decode w = .ok i) : Decodes w i := by
  obtain hres | ⟨j, hj⟩ := isReserved_or_decodes w
  · obtain ⟨r, hr⟩ := decode_error_of_isReserved hres
    cases h.symm.trans hr
  · obtain rfl : i = j := Except.ok.inj (h.symm.trans hj.decode_eq)
    exact hj

theorem Decodes.wellFormed (h : Decodes w i) : i.wellFormed = true := by
  cases h with
  | fmttext hop hlen => exact decide_eq_true hlen
  | _ => rfl

theorem Decodes.encode_eq (h : Decodes w i) : encode i = w &&& i.formatMask := by
  cases h with
  | lookup hop => exact encode_decodeLookup hop
  | render hop => exact encode_decodeRender hop
  | commit hop => exact encode_commit hop
  | fmtnum hop => exact encode_decodeFmtnum hop
  | fmttext hop hlen => exact encode_decodeFmttext hop
  | setcount hop => exact encode_decodeSetcount hop
  | setstate hop => exact encode_decodeSetstate hop

end

/-- Settles O2: each format's fields, put back where they were read, are the word masked. -/
theorem encodeOfDecodeKeepsTheFormatBits : Obligations.EncodeOfDecodeKeepsTheFormatBits := by
  intro w i h
  have hi := decodes_of_decode_ok h
  exact ⟨hi.wellFormed, hi.encode_eq⟩

/-- Settles O3: a word that is not reserved encodes a command. -/
theorem decodeRefusesExactlyReservedWords : Obligations.DecodeRefusesExactlyReservedWords := by
  refine fun w => ⟨fun ⟨r, hr⟩ => ?_, decode_error_of_isReserved⟩
  obtain hres | ⟨i, hi⟩ := isReserved_or_decodes w
  · exact hres
  · cases hi.decode_eq.symm.trans hr

/-! ### A step on a legal word and on a reserved one -/

/-- Settles O6: the first waiting word is the one the step takes and decodes. -/
theorem stepRunsTheDecodedCommand : Obligations.StepRunsTheDecodedCommand := by
  intro s w rest i hp hd
  rw [step_of_pending s w rest hp, hd]

/-- Settles O4: the decoder refuses the word, and the step answers with `StateOf.skip`. -/
theorem reservedWordsAreSkipped : Obligations.ReservedWordsAreSkipped := by
  intro s w rest hp hres
  obtain ⟨r, hr⟩ := decode_error_of_isReserved hres
  rw [step_of_pending s w rest hp, hr]
  rfl

theorem response_of_wellFormed (cfg : Config 24) {i : Instr} (hwf : i.wellFormed = true)
    (hlookup : ∀ c, i ≠ .lookup c) : i.response cfg = ⟨.done, 0x00⟩ := by
  cases i with
  | lookup c => exact absurd rfl (hlookup c)
  | fmttext len c0 c1 c2 c3 col => exact congrArg (Response.mk · 0x00) (if_pos hwf)
  | _ => rfl

/-- Settles O9: a command's one response is `Instr.response`, a reserved word's that of the skip. -/
theorem eachCommandRespondsOnce : Obligations.EachCommandRespondsOnce := by
  refine ⟨rfl, rfl, fun c s t h => ?_, fun i s t hwf hlookup h => ?_, fun s t w rest hp hres h => ?_⟩
  · rw [(exec_next_iff _ s t).mp h, command_responses, Instr.response]
  · rw [(exec_next_iff i s t).mp h, command_responses, response_of_wellFormed config hwf hlookup]
  · rw [reservedWordsAreSkipped s w rest hp hres] at h
    exact Host.Outcome.next.inj h ▸ rfl

/-! ### The bits the block does not look at -/

section
variable {w v mask : CommandWord}

/-- Words that agree under a mask agree on every field the mask lists in full. -/
theorem extractLsb'_eq_of_and_eq {start n : Nat} (h : w &&& mask = v &&& mask)
    (hmask : mask.extractLsb' start n = BitVec.allOnes n) :
    w.extractLsb' start n = v.extractLsb' start n := by
  have hfield := congrArg (BitVec.extractLsb' start n) h
  rwa [BitVec.extractLsb'_and, BitVec.extractLsb'_and, hmask, BitVec.and_allOnes,
    BitVec.and_allOnes] at hfield

theorem getLsbD_eq_of_and_eq {k : Nat} (h : w &&& mask = v &&& mask)
    (hmask : mask.extractLsb' k 1 = BitVec.allOnes 1) : w.getLsbD k = v.getLsbD k := by
  rw [BitVec.getLsbD_eq_extractLsb', BitVec.getLsbD_eq_extractLsb', extractLsb'_eq_of_and_eq h hmask]

theorem significantMask_lists_opcode (w : CommandWord) :
    (significantMask w).extractLsb' 60 4 = BitVec.allOnes 4 := by
  simp only [significantMask, slotMask]
  split_ifs <;> rfl

/-- The opcode, length and colour of a text, and its slots below the length (R51, R55). -/
def textBits (len : Nat) : CommandWord := 0xF700000000FFFFFF ||| slotMask len

/-- The bits of the word a command depends on: those its format lists, but for the unused slots of a
text (R51, R55). -/
def Instr.significantBits : Instr → CommandWord
  | .fmttext len _ _ _ _ _ => textBits len.toNat
  | i => i.formatMask

theorem Decodes.significantMask_eq {i : Instr} (h : Decodes w i) :
    significantMask w = i.significantBits := by
  simp only [significantMask, ← opcodeField.eq_1]
  cases h with
  | _ hop => rw [hop]; rfl

theorem textBits_list_fields {len : Nat} (hlen : len ≤ 4) :
    (textBits len).extractLsb' 56 3 = BitVec.allOnes 3 ∧
      (textBits len).extractLsb' 0 24 = BitVec.allOnes 24 ∧
      ∀ k < len, (textBits len).extractLsb' (48 - 8 * k) 8 = BitVec.allOnes 8 := by
  revert len
  decide

end

section
variable {width : Nat} (cfg : Config width) {len : BitVec 3} {c0 c1 c2 c3 d0 d1 d2 d3 : CharCode}
  (col : Color width) (s : StateOf width)

theorem textCell_congr {len i : Nat} {c d : CharCode} (h : i < len → c = d) :
    textCell cfg len i c col = textCell cfg len i d col := by
  rw [textCell, textCell]
  split
  · rw [h ‹_›]
  · rfl

/-- A text does not depend on the characters beyond its length (R90). -/
theorem fmttextCommand_congr (h0 : 0 < len.toNat → c0 = d0) (h1 : 1 < len.toNat → c1 = d1)
    (h2 : 2 < len.toNat → c2 = d2) (h3 : 3 < len.toNat → c3 = d3) :
    fmttextCommand cfg len c0 c1 c2 c3 col s = fmttextCommand cfg len d0 d1 d2 d3 col s := by
  simp only [fmttextCommand, formatText, textCells, textCell_congr cfg col h0,
    textCell_congr cfg col h1, textCell_congr cfg col h2, textCell_congr cfg col h3]

end

section
variable {w v : CommandWord}

theorem decodeLookup_congr (h : w &&& 0xF0000000000000FF = v &&& 0xF0000000000000FF) :
    decodeLookup w = decodeLookup v := by
  rw [decodeLookup, decodeLookup, extractLsb'_eq_of_and_eq h rfl]

theorem decodeRender_congr (h : w &&& 0xF0000003FFFFFFFF = v &&& 0xF0000003FFFFFFFF) :
    decodeRender w = decodeRender v := by
  rw [decodeRender, decodeRender, extractLsb'_eq_of_and_eq (start := 32) h rfl,
    extractLsb'_eq_of_and_eq (start := 24) h rfl, extractLsb'_eq_of_and_eq (start := 0) h rfl]

theorem decodeFmtnum_congr (h : w &&& 0xF00000000001FFFF = v &&& 0xF00000000001FFFF) :
    decodeFmtnum w = decodeFmtnum v := by
  rw [decodeFmtnum, decodeFmtnum, extractLsb'_eq_of_and_eq h rfl, getLsbD_eq_of_and_eq h rfl]

theorem decodeSetcount_congr (h : w &&& 0xF00000000000FFFF = v &&& 0xF00000000000FFFF) :
    decodeSetcount w = decodeSetcount v := by
  rw [decodeSetcount, decodeSetcount, extractLsb'_eq_of_and_eq h rfl]

theorem decodeSetstate_congr (h : w &&& 0xF000000000010000 = v &&& 0xF000000000010000) :
    decodeSetstate w = decodeSetstate v := by
  rw [decodeSetstate, decodeSetstate, getLsbD_eq_of_and_eq h rfl]

theorem command_decodeFmttext_congr (hlen : (w.extractLsb' 56 3).toNat ≤ 4)
    (h : w &&& textBits (w.extractLsb' 56 3).toNat = v &&& textBits (w.extractLsb' 56 3).toNat)
    (cfg : Config 24) (s : StateOf 24) :
    command cfg (decodeFmttext w) s = command cfg (decodeFmttext v) s := by
  obtain ⟨hlistsLen, hlistsCol, hlistsSlot⟩ := textBits_list_fields hlen
  have hslot (k : Nat) (hk : k < (w.extractLsb' 56 3).toNat) :
      w.extractLsb' (48 - 8 * k) 8 = v.extractLsb' (48 - 8 * k) 8 :=
    extractLsb'_eq_of_and_eq h (hlistsSlot k hk)
  simp only [command, decodeFmttext, ← extractLsb'_eq_of_and_eq h hlistsLen,
    ← extractLsb'_eq_of_and_eq h hlistsCol]
  exact fmttextCommand_congr cfg _ s (hslot 0) (hslot 1) (hslot 2) (hslot 3)

/-- A word that agrees with a legal one on its significant bits encodes a command of the same
meaning (R55). -/
theorem Decodes.exists_of_agree {i : Instr} (hi : Decodes w i)
    (h : w &&& significantMask w = v &&& significantMask w) :
    ∃ j, Decodes v j ∧ ∀ cfg s, command cfg i s = command cfg j s := by
  have hopcode : opcodeField w = opcodeField v :=
    extractLsb'_eq_of_and_eq h (significantMask_lists_opcode w)
  rw [hi.significantMask_eq] at h
  cases hi with
  | lookup hop => exact ⟨_, .lookup (hopcode ▸ hop), fun _ _ => by rw [decodeLookup_congr h]⟩
  | render hop => exact ⟨_, .render (hopcode ▸ hop), fun _ _ => by rw [decodeRender_congr h]⟩
  | commit hop => exact ⟨_, .commit (hopcode ▸ hop), fun _ _ => rfl⟩
  | fmtnum hop => exact ⟨_, .fmtnum (hopcode ▸ hop), fun _ _ => by rw [decodeFmtnum_congr h]⟩
  | fmttext hop hlen =>
    have hlenEq : w.extractLsb' 56 3 = v.extractLsb' 56 3 :=
      extractLsb'_eq_of_and_eq h (textBits_list_fields hlen).1
    exact ⟨_, .fmttext (hopcode ▸ hop) (hlenEq ▸ hlen), command_decodeFmttext_congr hlen h⟩
  | setcount hop => exact ⟨_, .setcount (hopcode ▸ hop), fun _ _ => by rw [decodeSetcount_congr h]⟩
  | setstate hop => exact ⟨_, .setstate (hopcode ▸ hop), fun _ _ => by rw [decodeSetstate_congr h]⟩

theorem Decodes.afterWord_eq {i : Instr} (h : Decodes w i) (s : StateOf 24) :
    afterWord w s = command config i s := by
  rw [afterWord, h.decode_eq]

end

/-- Settles O5: words that agree on the significant bits encode commands of the same meaning. -/
theorem ignoredBitsChangeNothing : Obligations.IgnoredBitsChangeNothing := by
  intro s w v rest hlegal hagree
  obtain ⟨i, hi⟩ := (isReserved_or_decodes w).resolve_left hlegal
  obtain ⟨j, hj, hsame⟩ := hi.exists_of_agree hagree
  rw [step_eq_afterWord { s with pending := w :: rest } rfl,
    step_eq_afterWord { s with pending := v :: rest } rfl, hi.afterWord_eq, hj.afterWord_eq, hsame]

end Sys2Proof
end

section
/-! PROOFS. The character map (`40_charmap.md`): `Lookup` follows the span (R71), LOOKUP only
responds (R74), and the glyph of a character the ROM does not assign can be seen (R72, R111). -/

namespace Sys2Proof

open Machine Safety

/-! ### A visible pattern lights a pixel -/

section
variable {width : Nat}

theorem exists_getLsbD_of_ne_blank {pat : Pattern} (h : pat ≠ blank) :
    ∃ b : Fin 8, pat.getLsbD b.val = true := by
  by_contra hnone
  refine h (BitVec.eq_of_getLsbD_eq fun i hi => ?_)
  have hclear : pat.getLsbD i = false :=
    Bool.eq_false_of_not_eq_true fun hset => hnone ⟨⟨i, hi⟩, hset⟩
  exact hclear.trans BitVec.getLsbD_zero.symm

/-- Every segment has a first pixel (R80 constraint 1). -/
theorem geomRead_first_ne_noPixel (cfg : Config width) (b : Fin 8) :
    geomRead cfg b 0 ≠ noPixel := by
  obtain ⟨-, hgeom, -⟩ := cfg.legal
  obtain ⟨-, hreal, -⟩ := (geomLegal_iff cfg.toParams).mp hgeom
  have hlt : (geomRead cfg b 0).toNat < 15 := hreal (b, 0) (by simp)
  intro hnone
  rw [hnone] at hlt
  exact absurd hlt (by decide)

theorem exists_mem_litOffsets_of_ne_blank (cfg : Config width) {pat : Pattern} (h : pat ≠ blank) :
    ∃ o, o ∈ litOffsets cfg pat := by
  obtain ⟨b, hset⟩ := exists_getLsbD_of_ne_blank h
  exact ⟨_, (mem_litOffsets cfg pat _).mpr ⟨b, 0, hset, geomRead_first_ne_noPixel cfg b, rfl⟩⟩

/-- The calls that light come after those that clear, so a lit pixel keeps the colour (R82, R86). -/
theorem renderBuffer_getElem_of_mem_litOffsets {cfg : Config width} {pat : Pattern} {o : Nat}
    (ho : o ∈ litOffsets cfg pat) (p : Position) (col : Color width) (pix : PixelBuffer width) :
    (renderBuffer cfg p pat col pix)[pixelAddress p o]'(pixelAddress_lt p
      (lt_of_mem_litOffsets ho)) = col := by
  simp only [renderBuffer, renderWrites, applyWrites_append]
  refine applyWrites_getElem_of_touched _ _ _ _ col (fun w hw => ?_) ?_
  · obtain ⟨o', -, rfl⟩ := List.mem_map.mp hw
    rfl
  · exact ⟨_, List.mem_map_of_mem ho, rfl⟩

theorem exists_lit_pixel_of_ne_blank (cfg : Config width) {pat : Pattern} (h : pat ≠ blank)
    (p : Position) (col : Color width) (pix : PixelBuffer width) :
    ∃ (i : Nat) (hi : i < 60), ¬OutsideBlock p i ∧ (renderBuffer cfg p pat col pix)[i] = col := by
  obtain ⟨o, ho⟩ := exists_mem_litOffsets_of_ne_blank cfg h
  exact ⟨pixelAddress p o, _, not_outsideBlock_pixelAddress p (lt_of_mem_litOffsets ho),
    renderBuffer_getElem_of_mem_litOffsets ho p col pix⟩

end

/-- Settles O14: the sentinel is not blank (R72), and any other pattern lights a pixel. -/
theorem undefinedGlyphIsVisible : Obligations.UndefinedGlyphIsVisible := by
  intro width cfg p c col pix _ hundef
  obtain ⟨hvisible, -, -⟩ := cfg.legal
  rw [hundef]
  exact exists_lit_pixel_of_ne_blank cfg hvisible p col pix

/-! ### Looking a character up -/

/-- Settles O12: a code is inside the span or outside it, and each case has its law. -/
theorem lookupFollowsTheSpan : Obligations.LookupFollowsTheSpan := by
  intro width cfg c
  refine ⟨fun k hk hc => ?_, fun hc => lookup_of_outOfSpan cfg c (by omega)⟩
  rw [lookup_of_inSpan cfg c (by omega)]
  simp only [hc, Nat.add_sub_cancel_left]

/-- Settles O13: the corner codes are on either side of the span's two ends. -/
theorem lookupCommandOnlyResponds : Obligations.LookupCommandOnlyResponds := by
  refine ⟨decode_of_opcode1, fun c s => exec_eq_command (.lookup c) s, fun width cfg => ?_,
    by decide⟩
  refine ⟨?_, ?_, ?_, ?_⟩
  · exact (lookupFollowsTheSpan width cfg 0x1F).2 (by decide)
  · exact (lookupFollowsTheSpan width cfg 0x80).2 (by decide)
  · exact (lookupFollowsTheSpan width cfg 0x20).1 0 (by decide) rfl
  · exact (lookupFollowsTheSpan width cfg 0x7F).1 95 (by decide) rfl

end Sys2Proof
end

section
/-! PROOFS. Rendering (`41_render.md`): a render fixes every pixel of its block and no other (R82,
R86), so that a later one replaces an earlier one, different positions commute and different
patterns differ (R87); RENDER and COMMIT change nothing else of the state than R83 and R84 say. -/

namespace Sys2Proof

open Machine Safety

/-! ### The buffer after a render, pixel by pixel -/

section
variable {width : Nat} (cfg : Config width) (p : Position) (pat : Pattern) (col : Color width)
  (pix : PixelBuffer width)

theorem lit_iff_mem_litOffsets {cfg : Config width} {pat : Pattern} {o : Nat} (ho : o < 15) :
    Lit cfg pat o ↔ o ∈ litOffsets cfg pat := by
  rw [mem_litOffsets]
  constructor
  · rintro ⟨b, k, hset, hslot⟩
    refine ⟨b, k, hset, fun hnone => ?_, hslot⟩
    have hsentinel : noPixel.toNat = o := (congrArg BitVec.toNat hnone).symm.trans hslot
    exact absurd (hsentinel.trans_lt ho) (by decide)
  · rintro ⟨b, k, hset, -, hslot⟩
    exact ⟨b, k, hset, hslot⟩

theorem exists_offset_of_not_outsideBlock {p : Position} {i : Nat} (h : ¬OutsideBlock p i) :
    ∃ o < 15, i = pixelAddress p o := by
  simp only [OutsideBlock] at h
  exact ⟨i - (3 - p.val) * 15, by omega, by simp only [pixelAddress, blockBase]; omega⟩

theorem color_of_mem_clearWrites {p : Position} {w : PixelWrite width} (hw : w ∈ clearWrites p) :
    w.color = off := by
  obtain ⟨_, -, rfl⟩ := List.mem_map.mp hw
  rfl

theorem color_of_mem_lightWrites {cfg : Config width} {p : Position} {pat : Pattern}
    {col : Color width} {w : PixelWrite width} (hw : w ∈ lightWrites cfg p pat col) :
    w.color = col := by
  obtain ⟨_, -, rfl⟩ := List.mem_map.mp hw
  rfl

theorem exists_mem_clearWrites (p : Position) {o : Nat} (ho : o < 15) :
    ∃ w ∈ clearWrites (width := width) p, w.index = pixelAddress p o :=
  ⟨_, List.mem_map_of_mem (List.mem_range.mpr ho), rfl⟩

theorem renderBuffer_getElem_of_not_mem_litOffsets {cfg : Config width} {pat : Pattern} {o : Nat}
    (ho : o < 15) (hunlit : o ∉ litOffsets cfg pat) :
    (renderBuffer cfg p pat col pix)[pixelAddress p o]'(pixelAddress_lt p ho) = off := by
  simp only [renderBuffer, renderWrites, applyWrites_append]
  rw [applyWrites_getElem_of_untouched]
  · exact applyWrites_getElem_of_touched _ _ _ _ off (fun _ => color_of_mem_clearWrites)
      (exists_mem_clearWrites p ho)
  · intro w hw hindex
    obtain ⟨o', ho', rfl⟩ := List.mem_map.mp hw
    exact hunlit (Nat.add_left_cancel hindex ▸ ho')

theorem renderBuffer_getElem_of_outsideBlock {i : Nat} (hi : i < 60) (h : OutsideBlock p i) :
    (renderBuffer cfg p pat col pix)[i] = pix[i] := by
  refine applyWrites_getElem_of_untouched _ _ _ hi fun w hw hindex => ?_
  obtain ⟨o, ho, hw⟩ := exists_offset_of_mem_renderWrites hw
  exact not_outsideBlock_pixelAddress p ho (hw ▸ hindex ▸ h)

theorem renderBuffer_getElem_pixelAddress {o : Nat} (ho : o < 15) :
    (renderBuffer cfg p pat col pix)[pixelAddress p o]'(pixelAddress_lt p ho) =
      if Lit cfg pat o then col else off := by
  split
  case isTrue hlit =>
    exact renderBuffer_getElem_of_mem_litOffsets ((lit_iff_mem_litOffsets ho).mp hlit) p col pix
  case isFalse hunlit =>
    exact renderBuffer_getElem_of_not_mem_litOffsets p col pix ho
      (mt (lit_iff_mem_litOffsets ho).mpr hunlit)

theorem showsAt_renderBuffer : ShowsAt cfg p pat col (renderBuffer cfg p pat col pix) := by
  rintro _ o - ho rfl
  exact renderBuffer_getElem_pixelAddress cfg p pat col pix ho

end

/-- Settles O15: the block shows the pattern, and no call names a pixel outside it. -/
theorem renderClearsThenLights : Obligations.RenderClearsThenLights := by
  intro width cfg p pat col s
  exact ⟨showsAt_renderBuffer cfg p pat col s.pix,
    fun _ => renderBuffer_getElem_of_outsideBlock cfg p pat col s.pix, rfl⟩

/-- The decimal point has one pixel and each segment two (R80). -/
theorem slotOffsets_length_le {width : Nat} (cfg : Config width) (b : Fin 8) :
    (slotOffsets cfg b).length ≤ if b = 0 then 1 else 2 := by
  split
  case isTrue hdp =>
    obtain ⟨-, ⟨hnone, -, -⟩, -⟩ := cfg.legal
    have hsecond : geomRead cfg 0 1 = noPixel := hnone
    rw [hdp, slotOffsets, List.filterMap_cons, List.filterMap_cons, if_pos hsecond]
    split <;> simp
  case isFalse => exact List.length_filterMap_le _ _

theorem litOffsets_length_le {width : Nat} (cfg : Config width) (pat : Pattern) :
    (litOffsets cfg pat).length ≤ 15 := by
  rw [litOffsets, List.length_flatMap]
  calc (patternBits.map fun b => (if pat.getLsbD b.val then slotOffsets cfg b else []).length).sum
    _ ≤ (patternBits.map fun b => if b = 0 then 1 else 2).sum := List.sum_le_sum fun b _ => by
      split
      · exact slotOffsets_length_le cfg b
      · exact Nat.zero_le _
    _ = 15 := by decide

/-- Settles O22: R82's steps 2 and 3 are the two parts, and the decimal point has one
slot only (R80). -/
theorem renderClearsBeforeItLights : Obligations.RenderClearsBeforeItLights := by
  intro width cfg p pat col
  refine ⟨clearWrites p, lightWrites cfg p pat col, rfl, ?_, fun _ => color_of_mem_clearWrites,
    fun _ => exists_mem_clearWrites p, ?_, fun _ => color_of_mem_lightWrites⟩
  · rw [clearWrites, List.length_map, List.length_range]
  · rw [lightWrites, List.length_map]
    exact litOffsets_length_le cfg pat

/-! ### The two commands -/

/-- Settles O16: what RENDER draws is the render of its operands. -/
theorem renderCommandDrawsOneDigit : Obligations.RenderCommandDrawsOneDigit := by
  refine ⟨decode_of_opcode2, fun p pat col s => ⟨renderBuffer config p pat col s.pix, ?_, ?_, ?_⟩⟩
  · exact exec_eq_command (.render p pat col) s
  · exact showsAt_renderBuffer config p pat col s.pix
  · exact fun _ => renderBuffer_getElem_of_outsideBlock config p pat col s.pix

/-- Settles O23: COMMIT decodes by its opcode alone, and is `StateOf.sinkCommit` with a response. -/
theorem commitCommandShowsTheBuffer : Obligations.CommitCommandShowsTheBuffer :=
  ⟨decode_of_opcode3, exec_eq_command .commit⟩

/-! ### Two renders after each other -/

/-- Settles O17: inside the block only the later render counts, outside it neither does. -/
theorem renderReplacesAnEarlierRender : Obligations.RenderReplacesAnEarlierRender := by
  intro width cfg p pat pat' col col' pix
  refine Vector.ext fun i hi => ?_
  by_cases h : OutsideBlock p i
  · simp only [renderBuffer_getElem_of_outsideBlock _ _ _ _ _ hi h]
  · obtain ⟨o, ho, rfl⟩ := exists_offset_of_not_outsideBlock h
    simp only [renderBuffer_getElem_pixelAddress _ _ _ _ _ ho]

theorem outsideBlock_or_of_ne {p q : Position} (hpq : p ≠ q) (i : Nat) :
    OutsideBlock p i ∨ OutsideBlock q i := by
  have hval : p.val ≠ q.val := Fin.val_ne_of_ne hpq
  simp only [OutsideBlock]
  omega

/-- Outside the block of `p` it makes no difference whether `p` is rendered first or last. -/
theorem renderBuffer_comm_getElem_of_outsideBlock {width : Nat} (cfg : Config width)
    {p q : Position} (pat pat' : Pattern) (col col' : Color width) (pix : PixelBuffer width)
    {i : Nat} (hi : i < 60) (h : OutsideBlock p i) :
    (renderBuffer cfg q pat' col' (renderBuffer cfg p pat col pix))[i] =
      (renderBuffer cfg p pat col (renderBuffer cfg q pat' col' pix))[i] := by
  rw [renderBuffer_getElem_of_outsideBlock cfg p _ _ _ hi h]
  by_cases hq : OutsideBlock q i
  · simp only [renderBuffer_getElem_of_outsideBlock _ _ _ _ _ hi hq,
      renderBuffer_getElem_of_outsideBlock _ _ _ _ _ hi h]
  · obtain ⟨o, ho, rfl⟩ := exists_offset_of_not_outsideBlock hq
    simp only [renderBuffer_getElem_pixelAddress _ _ _ _ _ ho]

/-- Settles O18: each pixel is outside one of the two blocks, and there that block's render leaves
it. -/
theorem rendersOfDifferentPositionsCommute : Obligations.RendersOfDifferentPositionsCommute := by
  intro width cfg p q pat pat' col col' pix hpq
  refine Vector.ext fun i hi => ?_
  obtain h | h := outsideBlock_or_of_ne hpq i
  · exact renderBuffer_comm_getElem_of_outsideBlock cfg pat pat' col col' pix hi h
  · exact (renderBuffer_comm_getElem_of_outsideBlock cfg pat' pat col' col pix hi h).symm

/-! ### Which offsets a pattern lights -/

section
variable {width : Nat} (cfg : Config width) (pat : Pattern)

theorem slot_toNat_lt (cfg : Config width) {s : Fin 8 × Fin 2} (hs : s ≠ (0, 1)) :
    (cfg.slot s).toNat < 15 := by
  obtain ⟨-, hgeom, -⟩ := cfg.legal
  obtain ⟨-, hreal, -⟩ := (geomLegal_iff cfg.toParams).mp hgeom
  exact hreal s hs

/-- No other bit lights the pixel of a slot (R80 constraint 4). -/
theorem lit_slot_iff {s : Fin 8 × Fin 2} (hs : s ≠ (0, 1)) :
    Lit cfg pat (cfg.slot s).toNat ↔ pat.getLsbD s.1 = true := by
  obtain ⟨-, hgeom, -⟩ := cfg.legal
  refine ⟨fun ⟨b, k, hset, hslot⟩ => ?_, fun hset => ⟨s.1, s.2, hset, rfl⟩⟩
  have hsame : s = (b, k) :=
    slot_inj_of_geomLegal hgeom (slot_toNat_lt cfg hs) (BitVec.eq_of_toNat_eq hslot.symm)
  rwa [hsame]

/-- The slots that hold a pixel enumerate the offsets of a block, each once. -/
theorem range_perm_realSlots :
    (List.range 15).Perm (realSlots.map fun s => (cfg.slot s).toNat) := by
  obtain ⟨-, hgeom, -⟩ := cfg.legal
  obtain ⟨hnone, -, -⟩ := (geomLegal_iff cfg.toParams).mp hgeom
  refine (List.nodup_range.subperm fun o ho => ?_).perm_of_length_le (by simp [realSlots])
  obtain ⟨s, rfl⟩ := exists_slot_of_lt hgeom (List.mem_range.mp ho)
  have hs : s ≠ (0, 1) := ne_of_slot_toNat_lt hnone (List.mem_range.mp ho)
  exact List.mem_map_of_mem ((mem_realSlots s).mpr hs)

theorem countP_lit_eq_countP_realSlots :
    (List.range 15).countP (fun o => Lit cfg pat o) =
      realSlots.countP fun s => pat.getLsbD s.1 := by
  rw [(range_perm_realSlots cfg).countP_eq, List.countP_map]
  refine List.countP_congr fun s hs => ?_
  simpa using lit_slot_iff cfg pat ((mem_realSlots s).mp hs)

/-- One slot for the decimal point and two for each of the seven segments (R80). -/
theorem realSlots_eq : realSlots =
    (0, 0) :: ((List.finRange 7).map (fun k => (k.succ, 0)) ++
      (List.finRange 7).map (fun k => (k.succ, 1))) := by decide

theorem countP_realSlots :
    realSlots.countP (fun s => pat.getLsbD s.1) =
      2 * (List.range 7).countP (fun k => pat.getLsbD (k + 1)) +
        if pat.getLsbD 0 = true then 1 else 0 := by
  rw [realSlots_eq, List.countP_cons, List.countP_append, List.countP_map, List.countP_map, two_mul,
    ← List.map_coe_finRange_eq_range, List.countP_map]
  rfl

variable {pat} {col : Color width} (hcol : col ≠ off) (p : Position) (pix : PixelBuffer width)
include hcol

theorem renderBuffer_getElem_eq_col_iff {o : Nat} (ho : o < 15) :
    (renderBuffer cfg p pat col pix)[pixelAddress p o]'(pixelAddress_lt p ho) = col ↔
      Lit cfg pat o := by
  rw [renderBuffer_getElem_pixelAddress cfg p pat col pix ho]
  split
  · exact iff_of_true rfl ‹_›
  · exact iff_of_false hcol.symm ‹_›

end

/-- Settles O19: the first slot of each bit has the colour exactly when the bit is set. -/
theorem differentPatternsLightDifferentPixels :
    Obligations.DifferentPatternsLightDifferentPixels := by
  intro width cfg p pat pat' col pix hcol heq
  refine BitVec.eq_of_getLsbD_eq fun b hb => Bool.eq_iff_iff.mpr ?_
  have hslot : ((⟨b, hb⟩, 0) : Fin 8 × Fin 2) ≠ (0, 1) := by simp
  have ho := slot_toNat_lt cfg hslot
  rw [← lit_slot_iff cfg pat hslot, ← lit_slot_iff cfg pat' hslot,
    ← renderBuffer_getElem_eq_col_iff cfg hcol p pix ho, heq,
    renderBuffer_getElem_eq_col_iff cfg hcol p pix ho]

/-- Settles O20: the pixels with the colour are the slots of the set bits. -/
theorem litPixelCount : Obligations.LitPixelCount := by
  intro width cfg p pat col pix hcol
  rw [← List.countP_eq_length_filter, ← List.countP_eq_length_filter, ← countP_realSlots,
    ← countP_lit_eq_countP_realSlots cfg]
  refine List.countP_congr fun o ho => ?_
  rw [List.mem_range] at ho
  change (_[pixelAddress p o]? == some col) = true ↔ _
  rw [beq_iff_eq, decide_eq_true_iff, Vector.getElem?_eq_getElem (pixelAddress_lt p ho),
    Option.some_inj, renderBuffer_getElem_eq_col_iff cfg hcol p pix ho]

end Sys2Proof
end

section
/-! PROOFS. The display frame formatter (`42_format.md`): what four rendered cells leave on the
strip (R90, R93), the cells of the text formatter (R90) and of the number formatter (R92, R96 to
R98), and the two commands (R94, R95). -/

namespace Sys2Proof

open Machine Safety

/-! ### A frame of four cells -/

section
variable {width : Nat} {cfg : Config width}

theorem showsAt_renderBuffer_of_ne {p q : Position} {pat pat' : Pattern} {col col' : Color width}
    {pix : PixelBuffer width} (h : ShowsAt cfg q pat' col' pix) (hqp : q ≠ p) :
    ShowsAt cfg q pat' col' (renderBuffer cfg p pat col pix) := by
  rintro _ o hi ho rfl
  have houtside : OutsideBlock p (pixelAddress q o) :=
    (outsideBlock_or_of_ne hqp _).resolve_left (not_outsideBlock_pixelAddress q ho)
  exact (renderBuffer_getElem_of_outsideBlock cfg p pat col pix hi houtside).trans (h _ o hi ho rfl)

/-- A position keeps its cell through the renders of the others; its own render shows it anew. -/
theorem showsAt_foldl_renderBuffer (cells : Cells width) {p : Position} (ps : List Position)
    (pix : PixelBuffer width) (h : p ∈ ps ∨ ShowsAt cfg p cells[p].pat cells[p].col pix) :
    ShowsAt cfg p cells[p].pat cells[p].col
      (ps.foldl (fun b q => renderBuffer cfg q cells[q].pat cells[q].col b) pix) := by
  induction ps generalizing pix with
  | nil => exact h.resolve_left List.not_mem_nil
  | cons q ps ih =>
    refine ih _ ?_
    obtain rfl | hpq := eq_or_ne p q
    · exact .inr (showsAt_renderBuffer cfg p _ _ pix)
    · exact h.imp (List.mem_of_ne_of_mem hpq) (showsAt_renderBuffer_of_ne · hpq)

theorem showsCells_renderCells (cfg : Config width) (cells : Cells width)
    (pix : PixelBuffer width) : ShowsCells cfg cells (renderCells cfg cells pix) := by
  have hall : ∀ p : Position, p ∈ positions := by decide
  exact fun p => showsAt_foldl_renderBuffer cells positions pix (.inl (hall p))

/-- The four blocks cover the strip, so the cells determine the frame (R35). -/
theorem eq_of_showsCells {cells : Cells width} {frame frame' : PixelBuffer width}
    (h : ShowsCells cfg cells frame) (h' : ShowsCells cfg cells frame') : frame = frame' := by
  refine Vector.ext fun i hi => ?_
  obtain ⟨-, hcover⟩ := pixelAddressesStayInTheBlock
  obtain ⟨p, hp, -⟩ := hcover i hi
  obtain ⟨o, ho, rfl⟩ := exists_offset_of_not_outsideBlock hp
  rw [h p _ o hi ho rfl, h' p _ o hi ho rfl]

theorem renderCells_eq_renderCells (cfg : Config width) (cells : Cells width)
    (pix pix' : PixelBuffer width) : renderCells cfg cells pix = renderCells cfg cells pix' :=
  eq_of_showsCells (showsCells_renderCells cfg cells pix) (showsCells_renderCells cfg cells pix')

/-- Whatever the buffer holds, showing four cells commits one and the same frame (R93). -/
theorem exists_frame_showCells (cfg : Config width) (cells : Cells width) :
    ∃ frame : PixelBuffer width, ShowsCells cfg cells frame ∧ ∀ s : StateOf width,
      s.showCells cfg cells =
        { s with pix := frame, led := frame, trace := s.trace ++ [.commit frame] } := by
  refine ⟨renderCells cfg cells (Vector.replicate 60 off), showsCells_renderCells _ _ _,
    fun s => ?_⟩
  rw [renderCells_eq_renderCells cfg cells _ s.pix]
  rfl

end

/-- Settles O28: both formatters end with `StateOf.showCells`, of cells no state enters. -/
theorem formattersCommitOneFrame : Obligations.FormattersCommitOneFrame := by
  refine ⟨fun width cfg len c0 c1 c2 c3 col _ => ?_, fun width cfg n isOpen => ?_⟩
  · obtain ⟨frame, -, hframe⟩ := exists_frame_showCells cfg (textCells cfg len c0 c1 c2 c3 col)
    exact ⟨frame, hframe⟩
  · obtain ⟨frame, -, hframe⟩ := exists_frame_showCells cfg (numberCells cfg n isOpen)
    exact ⟨frame, hframe⟩

/-! ### FMTTEXT -/

section
variable {width : Nat} (cfg : Config width)

theorem textCell_eq (len i : Nat) (c : CharCode) (col : Color width) :
    textCell cfg len i c col = ⟨if i < len then lookup cfg c else blank, col⟩ :=
  (apply_ite (Cell.mk · col) _ _ _).symm

theorem textCells_getElem (len : Nat) (c0 c1 c2 c3 : CharCode) (col : Color width) (p : Position) :
    (textCells cfg len c0 c1 c2 c3 col)[p] =
      ⟨if p.val < len then lookup cfg (#v[c0, c1, c2, c3])[p] else blank, col⟩ := by
  fin_cases p <;> exact textCell_eq cfg len _ _ col

end

/-- Settles O25: position `p` shows the cell of character `p`. -/
theorem formatTextShowsItsCharacters : Obligations.FormatTextShowsItsCharacters := by
  intro width cfg len c0 c1 c2 c3 col s _
  obtain ⟨frame, hshows, hframe⟩ := exists_frame_showCells cfg (textCells cfg len c0 c1 c2 c3 col)
  refine ⟨frame, hframe s, fun p => ?_⟩
  have hcell := hshows p
  rwa [textCells_getElem] at hcell

/-- Settles O26: a legal text is `formatText` with a response; a longer one is a reserved word, and
skipped by the command too. -/
theorem fmttextShowsUpToFourCharacters : Obligations.FmttextShowsUpToFourCharacters := by
  refine ⟨fun w hop hlen => ?_, fun s w rest hp hop hlen => ?_,
    fun len c0 c1 c2 c3 col s hlen => ?_, fun len c0 c1 c2 c3 col s hlen => ?_⟩
  · exact (Decodes.fmttext hop hlen).decode_eq
  · exact reservedWordsAreSkipped s w rest hp (.inr (.inr ⟨hop, hlen⟩))
  · rw [exec_eq_command, command, fmttextCommand_of_lt config hlen]
    rfl
  · obtain ⟨frame, hframe, hshows⟩ :=
      formatTextShowsItsCharacters 24 config len.toNat c0 c1 c2 c3 col s.toStateOf hlen
    refine ⟨frame, ?_, hshows⟩
    rw [exec_eq_command, command, fmttextCommand_of_le config hlen, hframe]
    rfl

/-! ### The cells of a number -/

theorem charDigit_eq (d : Nat) : charDigit d = BitVec.ofNat 8 (0x30 + d) :=
  (BitVec.ofNat_add 0x30 d).symm

section
variable {width : Nat} (cfg : Config width)

theorem numberCells_of_toInt_eq {n : Count} {m : Nat} (hm : n.toInt = m) (hlt : m < 10000)
    (isOpen : Bool) : numberCells cfg n isOpen = numeralCells cfg m isOpen := by
  have hnat : n.toInt = n.toNat := count_toInt_of_nonneg n (by omega)
  rw [numberCells_of_inRange cfg n isOpen (by omega) (by omega),
    Int.ofNat_inj.mp (hnat.symm.trans hm)]

/-- The cells left of the units, each the digit of one power of ten and needed from that power on
(R92 rule 3). -/
theorem numeralCells_getElem_of_ne {p : Position} (hp : p ≠ 3) {m : Nat} (hlt : m < 10000)
    (isOpen : Bool) :
    (numeralCells cfg m isOpen)[p] =
      leadingCell cfg (decide (10 ^ (3 - p.val) ≤ m)) (m / 10 ^ (3 - p.val) % 10)
        (stateColor cfg isOpen) := by
  match p with
  | 0 =>
    have hthousands : m / 10 ^ 3 % 10 = m / 1000 := Nat.mod_eq_of_lt (by omega)
    exact (congrArg (leadingCell cfg _ · _) hthousands).symm
  | 1 => rfl
  | 2 => rfl
  | 3 => exact absurd rfl hp

/-- An open display adds no overlay (R92). -/
theorem unitsCell_open (d : Nat) :
    unitsCell cfg d true = ⟨lookup cfg (charDigit d), cfg.colorOpen⟩ :=
  congrArg (Cell.mk · cfg.colorOpen) BitVec.or_zero

theorem cellsOfNumber_numberCells (n : Count) (isOpen : Bool) :
    CellsOfNumber cfg n isOpen (numberCells cfg n isOpen) := by
  refine ⟨numberCells_of_negative cfg n isOpen, numberCells_of_large cfg n isOpen,
    fun d0 d1 d2 d3 h0 h1 h2 h3 hn => ?_⟩
  generalize hm : 1000 * d0 + 100 * d1 + 10 * d2 + d3 = m at hn
  have hthousands : m / 1000 = d0 := by omega
  have hhundreds : m / 100 % 10 = d1 := by omega
  have htens : m / 10 % 10 = d2 := by omega
  have hunits : m % 10 = d3 := by omega
  rw [numberCells_of_toInt_eq cfg hn (by omega), numeralCells, hthousands, hhundreds, htens, hunits,
    hn]
  simp only [leadingCell, unitsCell, stateColor, charDigit_eq, decide_eq_true_eq, gt_iff_lt,
    Nat.ofNat_lt_cast]

end

/-- Settles O27: the cells the number formatter shows are those of R92. -/
theorem formatNumberShowsItsCells : Obligations.FormatNumberShowsItsCells := by
  intro width cfg n isOpen s
  obtain ⟨frame, hshows, hframe⟩ := exists_frame_showCells cfg (numberCells cfg n isOpen)
  exact ⟨_, frame, cellsOfNumber_numberCells cfg n isOpen, hshows, hframe s⟩

/-- Settles O29: FMTNUM is the number formatter of its two operands, with a response. -/
theorem fmtnumShowsItsOperands : Obligations.FmtnumShowsItsOperands := by
  refine ⟨decode_of_opcode4, fun n isOpen s => ?_⟩
  obtain ⟨cells, frame, hcells, hshows, hframe⟩ :=
    formatNumberShowsItsCells 24 config n isOpen s.toStateOf
  refine ⟨cells, frame, hcells, hshows, ?_⟩
  rw [exec_eq_command, command, fmtnumCommand, hframe]
  rfl

/-- Settles O30: out of range the text takes no flag; in range the flag enters the units cell and
the colour of the numerals. -/
theorem flagMattersOnlyInRange : Obligations.FlagMattersOnlyInRange := by
  intro width cfg n
  refine ⟨fun hrange isOpen => ?_, fun hnonneg hle => ?_⟩
  · obtain hneg | hlarge := hrange
    · rw [numberCells_of_negative cfg n isOpen hneg, if_pos hneg]
      rfl
    · rw [numberCells_of_large cfg n isOpen hlarge, if_neg (by omega)]
      rfl
  · obtain ⟨m, hm⟩ := Int.eq_ofNat_of_zero_le hnonneg
    have hlt : m < 10000 := by omega
    obtain ⟨-, -, hcolors⟩ := cfg.legal
    simp only [numberCells_of_toInt_eq cfg hm hlt]
    refine ⟨hcolors, fun units _ hmod => ?_, fun p hp => ?_⟩
    · obtain rfl : units = m % 10 := by omega
      rw [← charDigit_eq]
      exact ⟨unitsCell_open cfg (m % 10), rfl⟩
    · rw [numeralCells_getElem_of_ne cfg hp hlt, numeralCells_getElem_of_ne cfg hp hlt, hm]
      by_cases hneeded : 10 ^ (3 - p.val) ≤ m
      · rw [if_pos (by exact_mod_cast hneeded), decide_eq_true hneeded]
        exact ⟨rfl, rfl, rfl⟩
      · rw [if_neg (by exact_mod_cast hneeded), decide_eq_false hneeded]
        exact ⟨rfl, rfl, rfl⟩

/-! ### The numerals as a decimal string -/

/-- The decimal digits of a number, none for zero. -/
def leadingDigits (n : Nat) : List Char := if n = 0 then [] else Nat.toDigits 10 n

/-- The cells of the last `k` decimal digits of a number, blank where no more digit is needed. -/
def leadingCells {width : Nat} (cfg : Config width) (st : Color width) :
    Nat → Nat → List (Cell width)
  | 0, _ => []
  | k + 1, n => leadingCells cfg st k (n / 10) ++ [leadingCell cfg (decide (n ≠ 0)) (n % 10) st]

theorem toDigits_eq_leadingDigits_append (n : Nat) :
    Nat.toDigits 10 n = leadingDigits (n / 10) ++ [(n % 10).digitChar] := by
  obtain hlt | hle := Nat.lt_or_ge n 10
  · rw [Nat.toDigits_of_lt_base hlt, leadingDigits, if_pos (Nat.div_eq_of_lt hlt),
      Nat.mod_eq_of_lt hlt, List.nil_append]
  · rw [Nat.toDigits_of_base_le (by decide) hle, leadingDigits, if_neg (by omega)]

theorem leadingDigits_of_ne_zero {n : Nat} (hn : n ≠ 0) :
    leadingDigits n = leadingDigits (n / 10) ++ [(n % 10).digitChar] :=
  (if_neg hn).trans (toDigits_eq_leadingDigits_append n)

theorem ofNat_toNat_digitChar_mod (n : Nat) :
    BitVec.ofNat 8 (n % 10).digitChar.toNat = charDigit (n % 10) := by
  have hdigits : ∀ d < 10, BitVec.ofNat 8 d.digitChar.toNat = charDigit d := by decide
  exact hdigits _ (Nat.mod_lt _ (by decide))

section
variable {width : Nat} (cfg : Config width)

theorem leadingCells_eq_replicate_append_map (st : Color width) (k : Nat) {n : Nat}
    (hn : n < 10 ^ k) :
    leadingCells cfg st k n =
      List.replicate (k - (leadingDigits n).length) ⟨blank, cfg.colorWarn⟩ ++
        (leadingDigits n).map fun ch => ⟨lookup cfg (BitVec.ofNat 8 ch.toNat), st⟩ := by
  induction k generalizing n with
  | zero =>
    obtain rfl : n = 0 := Nat.lt_one_iff.mp hn
    rfl
  | succ k ih =>
    rw [leadingCells, ih (Nat.div_lt_of_lt_mul (by rwa [mul_comm, ← pow_succ]))]
    obtain rfl | hpos := eq_or_ne n 0
    · simp [leadingDigits, leadingCell, List.replicate_succ']
    · simp [leadingDigits_of_ne_zero hpos, leadingCell, hpos, ofNat_toNat_digitChar_mod]

theorem numeralCells_toList {m : Nat} (hlt : m < 10000) (isOpen : Bool) :
    (numeralCells cfg m isOpen).toList =
      leadingCells cfg (stateColor cfg isOpen) 3 (m / 10) ++ [unitsCell cfg (m % 10) isOpen] := by
  have hthousands : m / 1000 = m / 10 / 10 / 10 % 10 := by omega
  have hhundreds : m / 100 = m / 10 / 10 := by omega
  have hneeded3 : m > 999 ↔ m / 10 / 10 / 10 ≠ 0 := by omega
  have hneeded2 : m > 99 ↔ m / 10 / 10 ≠ 0 := by omega
  have hneeded1 : m > 9 ↔ m / 10 ≠ 0 := by omega
  simp only [numeralCells, hthousands, hhundreds, hneeded3, hneeded2, hneeded1]
  rfl

end

/-- Settles O31: the cells are read off digit by digit, as `Nat.toDigits` spells the count. -/
theorem numeralsSpellTheCount : Obligations.NumeralsSpellTheCount := by
  intro width cfg n isOpen hlt
  have hnat : (BitVec.ofNat 16 n).toNat = n := by
    rw [BitVec.toNat_ofNat, Nat.mod_eq_of_lt (by omega)]
  have hn : (BitVec.ofNat 16 n).toInt = n := by
    rw [BitVec.toInt_eq_toNat_of_lt (by omega), hnat]
  refine ⟨leadingDigits (n / 10), (n % 10).digitChar, toDigits_eq_leadingDigits_append n, ?_⟩
  rw [numberCells_of_toInt_eq cfg hn hlt, numeralCells_toList cfg hlt,
    leadingCells_eq_replicate_append_map cfg _ 3 (by omega)]
  simp [unitsCell, ofNat_toNat_digitChar_mod, stateColor]

end Sys2Proof
end

section
/-! PROOFS. The holding-register updates (`43_update.md`): each stores its operand and shows what
FMTNUM of the registers shows (R100, R101), so their order does not matter (R102). -/

namespace Sys2Proof

open Machine Safety

/-! ### What an update leaves in the registers and on the LEDs -/

section
variable {width : Nat} (cfg : Config width) (n : Count) (isOpen : Bool) (s : StateOf width)

@[simp] theorem setcountCommand_count : (setcountCommand cfg n s).count = n := rfl

@[simp] theorem setcountCommand_isOpen : (setcountCommand cfg n s).isOpen = s.isOpen := rfl

@[simp] theorem setstateCommand_count : (setstateCommand cfg isOpen s).count = s.count := rfl

@[simp] theorem setstateCommand_isOpen : (setstateCommand cfg isOpen s).isOpen = isOpen := rfl

/-- An update is FMTNUM of the registers, once the new value is stored (R100). -/
theorem setcountCommand_eq_fmtnumCommand :
    setcountCommand cfg n s = fmtnumCommand cfg n s.isOpen (s.setCount n) := rfl

/-- An update is FMTNUM of the registers, once the new value is stored (R101). -/
theorem setstateCommand_eq_fmtnumCommand :
    setstateCommand cfg isOpen s = fmtnumCommand cfg s.count isOpen (s.setIsOpen isOpen) := rfl

/-- The LEDs after FMTNUM depend on its operands alone (R93). -/
theorem fmtnumCommand_led_eq (t : StateOf width) :
    (fmtnumCommand cfg n isOpen s).led = (fmtnumCommand cfg n isOpen t).led := by
  obtain ⟨-, hnumber⟩ := formattersCommitOneFrame
  obtain ⟨frame, hframe⟩ := hnumber width cfg n isOpen
  rw [fmtnumCommand, fmtnumCommand, hframe s, hframe t]
  rfl

/-- Whatever state FMTNUM starts from, it shows what the update shows. -/
theorem setcountCommand_led (t : StateOf width) :
    (setcountCommand cfg n s).led = (fmtnumCommand cfg n s.isOpen t).led := by
  rw [setcountCommand_eq_fmtnumCommand, fmtnumCommand_led_eq cfg n s.isOpen _ t]

/-- Whatever state FMTNUM starts from, it shows what the update shows. -/
theorem setstateCommand_led (t : StateOf width) :
    (setstateCommand cfg isOpen s).led = (fmtnumCommand cfg s.count isOpen t).led := by
  rw [setstateCommand_eq_fmtnumCommand, fmtnumCommand_led_eq cfg s.count isOpen _ t]

end

/-- Settles O32: SETCOUNT is the number formatter on the state with the count stored. -/
theorem setcountStoresThenShows : Obligations.SetcountStoresThenShows := by
  refine ⟨decode_of_opcode6, fun n s => ?_⟩
  obtain ⟨cells, frame, hcells, hshows, hframe⟩ :=
    formatNumberShowsItsCells 24 config n s.isOpen (s.setCount n)
  refine ⟨cells, frame, hcells, hshows, ?_⟩
  rw [exec_eq_command, command, setcountCommand_eq_fmtnumCommand, fmtnumCommand, hframe]
  rfl

/-- Settles O33: SETSTATE is the number formatter on the state with the flag stored. -/
theorem setstateStoresThenShows : Obligations.SetstateStoresThenShows := by
  refine ⟨decode_of_opcode7, fun isOpen s => ?_⟩
  obtain ⟨cells, frame, hcells, hshows, hframe⟩ :=
    formatNumberShowsItsCells 24 config s.count isOpen (s.setIsOpen isOpen)
  refine ⟨cells, frame, hcells, hshows, ?_⟩
  rw [exec_eq_command, command, setstateCommand_eq_fmtnumCommand, fmtnumCommand, hframe]
  rfl

/-- Settles O34: the later update shows FMTNUM of its operand and of the register the earlier one
left. -/
theorem displayReflectsTheLatestOfBoth : Obligations.DisplayReflectsTheLatestOfBoth := by
  intro width cfg n isOpen s
  simp [setcountCommand_led cfg n _ s, setstateCommand_led cfg isOpen _ s]

end Sys2Proof
end

section
/-! PROOFS. Every step completes: one response for one word, or idling (`60_exceptions.md` R110). -/

namespace Sys2Proof

open Machine

/-- The word the block has taken is answered once, whether it is a command or reserved (R58). -/
theorem afterWord_responses (w : CommandWord) (s : StateOf 24) :
    ∃ r : Response, (afterWord w s).responses = s.responses ++ [r] := by
  rw [afterWord]
  cases decode w with
  | ok i => exact ⟨i.response config, command_responses config i s⟩
  | error r => exact ⟨⟨.skipped, 0x00⟩, s.skip_responses⟩

/-- Settles O7: an idle step keeps the state, and any other is `afterWord` of the word it takes. -/
theorem everyStepCompletesWithOneResponse : Obligations.EveryStepCompletesWithOneResponse := by
  intro s
  cases hp : s.pending with
  | nil => exact ⟨s, step_of_idle s hp, hp, fun _ => rfl, fun hne => absurd rfl hne⟩
  | cons w rest =>
    exact ⟨_, step_eq_afterWord s hp, afterWord_pending w _,
      fun hnil => absurd hnil (List.cons_ne_nil w rest), fun _ => afterWord_responses w _⟩

end Sys2Proof
end

section
/-! PROOFS. Reset and hazards (`70_reset_and_hazards.md`): what the reset sequence leaves (R130 to
R132), that a run answers every command (R134), and which frames a sequence of two commands shows
(R140 to R143). -/

namespace Sys2Proof

open Machine Safety

/-! ### Reset -/

/-- Settles O46: two register writes, then the one luminance call. -/
theorem resetSequenceSetsTheRegisters : Obligations.ResetSequenceSetsTheRegisters :=
  fun _ _ _ => rfl

/-- Settles O47: the sequence overwrites the three registers and adds the one `Lum` event. -/
theorem resetStateIsWhatTheSequenceLeaves : Obligations.ResetStateIsWhatTheSequenceLeaves := by
  refine ⟨fun n isOpen level => ?_, rfl, rfl, rfl, rfl⟩
  rw [resetSequenceSetsTheRegisters]
  rfl

/-! ### A run -/

/-- A run as long as the port empties it, each word answered once. -/
theorem run_answers_waiting (waiting : List CommandWord) (s : State) (hs : s.pending = waiting) :
    ∃ t : State, Host.Core.run Sys2Proof.core waiting.length s = .next t ∧ t.pending = [] ∧
      t.responses.length = s.responses.length + waiting.length := by
  induction waiting generalizing s with
  | nil => exact ⟨s, rfl, hs, rfl⟩
  | cons w rest ih =>
    obtain ⟨u, hstep, hport, -, hanswer⟩ := everyStepCompletesWithOneResponse s
    rw [hs] at hport hanswer
    obtain ⟨r, hr⟩ := hanswer (List.cons_ne_nil w rest)
    obtain ⟨t, hrun, hempty, hcount⟩ := ih u hport
    refine ⟨t, (run_succ rest.length s u hstep).trans hrun, hempty, ?_⟩
    rw [hcount, hr, List.length_append, List.length_singleton, List.length_cons]
    omega

/-- Settles O44: the waiting words are the number of steps. -/
theorem aRunAnswersEveryCommand : Obligations.ARunAnswersEveryCommand :=
  fun s => run_answers_waiting s.pending s rfl

/-! ### The frames of two commands in a row -/

/-- Settles O24: the frame is the earlier buffer after the one render. -/
theorem partialFrameKeepsTheOtherDigits : Obligations.PartialFrameKeepsTheOtherDigits := by
  intro width cfg p pat col s
  obtain ⟨hshows, hkeeps, -⟩ := renderClearsThenLights width cfg p pat col s
  exact ⟨(s.render cfg p pat col).pix, rfl, rfl, hshows, hkeeps⟩

/-- FMTNUM commits one frame, of the cells R92 gives its operands. -/
theorem exists_frame_fmtnumCommand {width : Nat} (cfg : Config width) (n : Count) (isOpen : Bool)
    (s : StateOf width) :
    ∃ (cells : Cells width) (frame : PixelBuffer width),
      CellsOfNumber cfg n isOpen cells ∧ ShowsCells cfg cells frame ∧
      (fmtnumCommand cfg n isOpen s).trace = s.trace ++ [.commit frame] := by
  obtain ⟨cells, frame, hcells, hshows, hframe⟩ := formatNumberShowsItsCells width cfg n isOpen s
  refine ⟨cells, frame, hcells, hshows, ?_⟩
  rw [fmtnumCommand, hframe]
  rfl

/-- Settles O35: each update is FMTNUM of the registers, and the second one finds the count of the
first. -/
theorem intermediateFrameIsCommitted : Obligations.IntermediateFrameIsCommitted := by
  intro width cfg n isOpen s
  obtain ⟨between, frame, hbetween, hframe, htrace⟩ :=
    exists_frame_fmtnumCommand cfg n s.isOpen (s.setCount n)
  obtain ⟨after, frame', hafter, hframe', htrace'⟩ :=
    exists_frame_fmtnumCommand cfg n isOpen ((setcountCommand cfg n s).setIsOpen isOpen)
  refine ⟨between, after, frame, frame', hbetween, hframe, hafter, hframe', ?_⟩
  rw [setstateCommand_eq_fmtnumCommand, setcountCommand_count, htrace', StateOf.setIsOpen_trace,
    setcountCommand_eq_fmtnumCommand, htrace, StateOf.setCount_trace, List.append_assoc,
    List.singleton_append]

/-- Settles O37: an update shows FMTNUM of its operand and of the other register, which only the
other update writes. -/
theorem updatesReplaceWhateverWasShown : Obligations.UpdatesReplaceWhateverWasShown := by
  refine fun cfg i n isOpen s => ⟨fun hstate => ?_, fun hcount => ?_⟩
  · rw [setcountCommand_led cfg n _ s, setcountCommand_led cfg n s s, command_isOpen,
      isOpenAfter_of_not_setstate hstate]
  · rw [setstateCommand_led cfg isOpen _ s, setstateCommand_led cfg isOpen s s, command_count,
      countAfter_of_not_setcount hcount]

end Sys2Proof
end

section
/-! PROOFS. The words the spec writes out (`95_test_vectors.md`): each is the encoding of the command
beside it, reserved bits zero (R51, R55), so the decoder reads that command back. -/

namespace Sys2Proof

theorem decode_eq_ok_of_encode_eq {w : CommandWord} {i : Instr} (hwf : i.wellFormed = true)
    (hword : encode i = w) : decode w = .ok i :=
  hword ▸ decodeOfEncodeIsTheCommand i hwf

/-- Settles O8: the encoder writes each of the seven words. -/
theorem wordsOfTheSpecDecode : Obligations.WordsOfTheSpecDecode := by
  have hlookup : encode (.lookup 0x37) = 0x1000000000000037 := by decide
  have hrender : encode (.render 3 0x0E 0xFF0000) = 0x200000030EFF0000 := by decide
  have hcommit : encode .commit = 0x3000000000000000 := by decide
  have hfmtnum : encode (.fmtnum 0xFFFF true) = 0x400000000001FFFF := by decide
  have hfmttext : encode (.fmttext 2 0x41 0x42 0x00 0x00 0x0000FF) = 0x52414200000000FF := by decide
  have hsetcount : encode (.setcount 42) = 0x600000000000002A := by decide
  have hsetstate : encode (.setstate true) = 0x7000000000010000 := by decide
  exact ⟨decode_eq_ok_of_encode_eq rfl hlookup, decode_eq_ok_of_encode_eq rfl hrender,
    decode_eq_ok_of_encode_eq rfl hcommit, decode_eq_ok_of_encode_eq rfl hfmtnum,
    decode_eq_ok_of_encode_eq rfl hfmttext, decode_eq_ok_of_encode_eq rfl hsetcount,
    decode_eq_ok_of_encode_eq rfl hsetstate⟩

end Sys2Proof
end
